-- ==== Sys2Proof/Word.lean ====
section
/-! DEFINITION. Word.lean: the widths the spec gives the transceiver's values (R22, R24, R37 to R39, R77). -/

namespace Sys2Proof

/-- One bit, or one line level (R23): `true` is 1 (for the line: released, high), `false` is 0 (low). -/
abbrev Bit := Bool

/-- A command byte, an LED byte, a data byte (`u8`, R77). -/
abbrev Byte := BitVec 8

/-- The 16-bit address field of a block frame (`u16`, R77). -/
abbrev Half := BitVec 16

/-- The header shift register's contents (`Bits24`, R37). -/
abbrev Header := BitVec 24

/-- The block-write payload, `[u8; 32]` (R39): byte 0 is the first received (R55). -/
abbrev Block := Vector Byte 32

/-- An instant or a duration: a natural number of ticks (R24). -/
abbrev Tick := Nat

end Sys2Proof
end

