-- ==== Sys2Proof/Syntax.lean ====
section
/-! DEFINITION. Syntax.lean: the instructions (the command frames of spec/opcode_table.json), the frames
a receive delivers (R77), the timeout's information (R134), the frames a transmit takes (R80), and the
requests and inputs of the transceiver's neighbours (R25, R29, R105, R124, R126, R127). -/

namespace Sys2Proof

/-- The console's command frames, one constructor per row of spec/opcode_table.json (R78). The operands
are the fields of R71 to R74; the console stop bit is no operand, since its value is read and discarded
(R71, R79). -/
inductive Instr where
  /-- `IDENTIFY`, byte 0x00, format F_CMD1 (R95). -/
  | identify
  /-- `POLL`, byte 0x01, format F_CMD1 (R96). -/
  | poll
  /-- `BLOCK_READ`, byte 0x02, format F_BRD (R97). -/
  | blockRead (addr : Half)
  /-- `BLOCK_WRITE`, byte 0x03, format F_BWR (R98). -/
  | blockWrite (addr : Half) (data : Block)
  /-- `KBD_STATUS`, byte 0x13, format F_KBD (R99). -/
  | kbdStatus (led : Byte)
  /-- `IDENTIFY_FF`, byte 0xFF, format F_CMD1 (R100). -/
  | identifyFF
  /-- `UNRECOGNIZED`, every other byte, format F_CMD1 (R101). -/
  | unrecognized (op : Byte)
deriving DecidableEq, Repr

/-- What a successful receive delivers (R77). The command byte of an extended frame is implied by its form. -/
inductive Frame where
  | cmd1 (op : Byte)
  | kbd (led : Byte)
  | blockRead (addr : Half)
  | blockWrite (addr : Half) (data : Block)
deriving DecidableEq, Repr

/-- The busy-wait phase that ran out (R134). -/
inductive WaitPhase where
  /-- Phase A, waiting for the line to be high (R89). -/
  | waitHigh
  /-- Phase B, waiting for the next falling edge (R90). -/
  | waitLow
deriving DecidableEq, Repr

/-- The information a `ReceiveTimeout` carries (R134). -/
structure TimeoutInfo where
  phase : WaitPhase
  bits : Nat
deriving DecidableEq, Repr

/-- One `(value, bit-width)` segment of a ProtocolFrame (R80). -/
structure Segment where
  value : Nat
  width : Nat
deriving DecidableEq, Repr

/-- The ordered segments of one response (R80). -/
abbrev ProtocolFrame := List Segment

/-- A symbol the serializer clocks onto the line: a data bit, or the device stop (R118). -/
inductive WireSymbol where
  | data (b : Bit)
  | stop
deriving DecidableEq, Repr

/-- The dispatcher's two requests (R105, R124). -/
inductive DispatcherRequest where
  | transmit (frame : ProtocolFrame)
  | release
deriving DecidableEq, Repr

/-- The flush sequence's two requests (R126, R127). -/
inductive FlushRequest where
  | mask
  | unmask
deriving DecidableEq, Repr

/-- Everything the outside world does to the transceiver in one tick: the console's drive (R29), the
requests presented at the tick in the order presented (R132 step 0), and a reset (R151). -/
structure TickInput where
  consoleLow : Bool
  dispatcher : List DispatcherRequest := []
  flush : List FlushRequest := []
  reset : Bool := false
deriving DecidableEq, Repr, Inhabited

end Sys2Proof
end

