-- ==== Sys2Proof/Config.lean ====
section
/-! DEFINITION. Config.lean: the implementation parameters of 00_scope.md section 4 (R9 to R21), the
configuration EX1 of 95_test_vectors.md, and the free values of the environment. -/

namespace Sys2Proof

/-- `P_STALE_EDGE` (R17): what becomes of a falling edge while the edge trigger is not armed. -/
inductive StaleEdge where
  | discard
  | latch
deriving DecidableEq, Repr

/-- The parameters a model takes as arguments (R9 to R21). All are `OPEN` in the spec but the default of
`waitBudget`; a machine carries one `Config`, fixed when it is instantiated (R25). -/
structure Config where
  /-- `P_TICKS_PER_US` (R9). -/
  ticksPerUs : Nat
  /-- `P_TICK_WIDTH` (R10). -/
  tickWidth : Nat
  /-- `P_SAMPLE_DELAY` (R11). -/
  sampleDelay : Tick
  /-- `P_WAIT_BUDGET` (R12), default 300. -/
  waitBudget : Nat := 300
  /-- `P_POLL_TICKS` (R13). -/
  pollTicks : Tick
  /-- `P_EXT_STOP` (R15). -/
  extStop : Bool
  /-- `P_ENTRY_LATENCY_MAX` (R16). -/
  entryLatencyMax : Tick
  /-- `P_STALE_EDGE` (R17). -/
  staleEdge : StaleEdge
  /-- `P_T0_LOW` (R18). -/
  t0Low : Tick
  /-- `P_T0_HIGH` (R18). -/
  t0High : Tick
  /-- `P_T1_LOW` (R18). -/
  t1Low : Tick
  /-- `P_T1_HIGH` (R18). -/
  t1High : Tick
  /-- `P_TSTOP_LOW` (R18). -/
  tStopLow : Tick
  /-- `P_TX_START_MAX` (R19). -/
  txStartMax : Tick
  /-- `P_TX_DONE_MAX` (R19). -/
  txDoneMax : Tick
  /-- `P_MAX_FRAME_BITS` (R21). -/
  maxFrameBits : Nat
deriving DecidableEq, Repr

/-- `P_MAX_SEG_WIDTH` (R20): not a parameter, the spec's own choice. -/
def Config.maxSegWidth : Nat := 32

/-- The capacity every configuration must have at least (R21). -/
def Config.minFrameBits : Nat := 264

/-- The configuration with the recommended sample delay (R11) and pulse widths (R18) for `u` ticks per
microsecond, a poll of one read per microsecond, and no latency.
PRESUMED (log 17): these widths are marked as general knowledge in the spec. -/
def Config.nominal (u : Nat) : Config where
  ticksPerUs := u
  tickWidth := 32
  sampleDelay := 2 * u
  pollTicks := u
  extStop := true
  entryLatencyMax := 0
  staleEdge := .discard
  t0Low := 3 * u
  t0High := u
  t1Low := u
  t1High := 3 * u
  tStopLow := 2 * u
  txStartMax := 0
  txDoneMax := 0
  maxFrameBits := 264

/-- EX1, the default configuration of 95_test_vectors.md section 0. -/
def Config.ex1 : Config := Config.nominal 1

/-- FREE VALUE (log 4): what the outside world does in a tick the state lists no input for. -/
opaque Config.freeInput : Nat → TickInput

/-- FREE VALUE (log 5): a draw (R23 `draw x in S`) the state lists no choice for. -/
opaque Config.freeDraw : Nat → Nat

/-- FREE VALUE (log 7): the unspecified contents of `data` after the reset of this number, a value of its
own for each (R39, K10). -/
opaque Config.freeBlock : Nat → Block

end Sys2Proof
end

