-- ==== Sys2Proof/WellFormed.lean ====
section
/-! DEFINITION. WellFormed.lean: which terms of `Instr` are instructions. -/

namespace Sys2Proof

/-- The command bytes that have a row of their own (R78). -/
def namedBytes : List Byte := [0x00#8, 0x01#8, 0x02#8, 0x03#8, 0x13#8, 0xFF#8]

/-- `UNRECOGNIZED` is the default row: it applies only to a byte no other row matches (R78, R101). The
other rows' operands are well-formed by their types. -/
def Instr.wf : Instr → Bool
  | .identify => true
  | .poll => true
  | .blockRead _ => true
  | .blockWrite _ _ => true
  | .kbdStatus _ => true
  | .identifyFF => true
  | .unrecognized op => !namedBytes.contains op

end Sys2Proof
end

