-- ==== Sys2Proof/Decode.lean ====
section
/-! DEFINITION. Decode.lean: bits in wire order to an instruction (R53, R54, R69 to R79), the encoder
beside it, and the same for a word of spec/opcode_table.json. -/

namespace Sys2Proof

/-! ## Bit lists -/

/-- `msb_bits(v, W)` (R22): the bits of `v`, most significant first. -/
def msbBits (v : Nat) : Nat → List Bit
  | 0 => []
  | w + 1 => v.testBit w :: msbBits v w

/-- `from_msb(bits)` (R22): the unsigned value of a list of bits, most significant first. -/
def fromMsb (bits : List Bit) : Nat :=
  bits.foldl (fun v b => 2 * v + b.toNat) 0

/-- The field of `w` bits that follows the first `k` bits (R76). -/
def bitField (bits : List Bit) (k w : Nat) : BitVec w :=
  BitVec.ofNat w (fromMsb ((bits.drop k).take w))

/-- The 32 data bytes that follow the first `k` bits (R55, R76). -/
def blockField (bits : List Bit) (k : Nat) : Block :=
  Vector.ofFn fun j : Fin 32 => bitField bits (k + 8 * j.val) 8

/-- A payload in wire order: byte 0 first, each byte MSB first (R53, R55). -/
def blockBits (d : Block) : List Bit :=
  d.toList.flatMap fun byte => msbBits byte.toNat 8

/-! ## Formats and lengths -/

/-- The four frame formats (R71 to R74). -/
inductive FrameFormat where
  | cmd1
  | kbd
  | brd
  | bwr
deriving DecidableEq, Repr

/-- The format of a command byte (R69, R70, R78). Every byte has one (R79). -/
def formatOf (op : Byte) : FrameFormat :=
  if op = 0x02#8 then .brd
  else if op = 0x03#8 then .bwr
  else if op = 0x13#8 then .kbd
  else .cmd1

/-- `EXT` (R69): whether a byte is one of the three extended commands. -/
def isExtended (op : Byte) : Bool := op == 0x02#8 || op == 0x03#8 || op == 0x13#8

/-- The header and data bits of a format, the stop bit not counted (R70). -/
def FrameFormat.bodyBits : FrameFormat → Nat
  | .cmd1 => 8
  | .kbd => 16
  | .brd => 24
  | .bwr => 280

/-- `has_stop(op)` (R87): whether the frame of a command byte ends in a console stop bit. -/
def hasStop (extStop : Bool) (op : Byte) : Bool :=
  if isExtended op then extStop else true

/-- `need(op)` (R70): the rx bits of a frame, the stop bit included where there is one. -/
def frameNeed (extStop : Bool) (op : Byte) : Nat :=
  (formatOf op).bodyBits + (hasStop extStop op).toNat

/-! ## The decoder -/

/-- The instruction a command byte and the argument fields stand for (R78, R92): the first six rows
match exactly, the last catches every other byte. A field the format does not have is not read. -/
def Instr.ofFields (op : Byte) (led : Byte) (addr : Half) (data : Block) : Instr :=
  if op = 0x00#8 then .identify
  else if op = 0x01#8 then .poll
  else if op = 0x02#8 then .blockRead addr
  else if op = 0x03#8 then .blockWrite addr data
  else if op = 0x13#8 then .kbdStatus led
  else if op = 0xFF#8 then .identifyFF
  else .unrecognized op

/-- Why a bit list is no whole frame. There is no illegal command byte (R79): the only way not to decode
is to end too soon. -/
inductive DecodeError where
  /-- Fewer than the 9 bits the length decision takes (R88). -/
  | noLengthDecision
  /-- The frame of the command byte takes `need` bits and only `have_` are there (R70). -/
  | truncated (op : Byte) (need : Nat) (have_ : Nat)
deriving DecidableEq, Repr

/-- Read one frame from the front of a list of bits in wire order, and answer the bits after it. The
length is decided by the command byte alone (R70), which is rx bits 1 to 8 (R88, conflict C2). -/
def decode (extStop : Bool) (bits : List Bit) : Except DecodeError (Instr × List Bit) :=
  if bits.length < 9 then .error .noLengthDecision
  else if bits.length < frameNeed extStop (bitField bits 0 8) then
    .error (.truncated (bitField bits 0 8) (frameNeed extStop (bitField bits 0 8)) bits.length)
  else .ok (Instr.ofFields (bitField bits 0 8) (bitField bits 8 8) (bitField bits 8 16) (blockField bits 24),
    bits.drop (frameNeed extStop (bitField bits 0 8)))

/-! ## The encoder -/

/-- The command byte of an instruction (R78). -/
def Instr.opcode : Instr → Byte
  | .identify => 0x00#8
  | .poll => 0x01#8
  | .blockRead _ => 0x02#8
  | .blockWrite _ _ => 0x03#8
  | .kbdStatus _ => 0x13#8
  | .identifyFF => 0xFF#8
  | .unrecognized op => op

/-- The argument and data bits that follow the command byte (R54, R72 to R74). -/
def Instr.operandBits : Instr → List Bit
  | .identify => []
  | .poll => []
  | .blockRead addr => msbBits addr.toNat 16
  | .blockWrite addr data => msbBits addr.toNat 16 ++ blockBits data
  | .kbdStatus led => msbBits led.toNat 8
  | .identifyFF => []
  | .unrecognized _ => []

/-- The rx bits of an instruction's frame in wire order, with a stop bit of the value `stop` where the
format has one (R71 to R74). -/
def encode (extStop stop : Bool) (i : Instr) : List Bit :=
  msbBits i.opcode.toNat 8 ++ i.operandBits
    ++ (if hasStop extStop i.opcode then [stop] else [])

/-! ## Words of the opcode table -/

/-- The longest frame, 281 bits (R70), in whole bytes. -/
def longestFrameBytes : Nat := 36

/-- The bytes of a table word, bits 7..0 first: `given` of them are read from `w`, the rest are zero. -/
def tableBytes : (count given w : Nat) → List Nat
  | 0, _, _ => []
  | count + 1, 0, w => 0 :: tableBytes count 0 w
  | count + 1, given + 1, w => w % 256 :: tableBytes count given (w / 256)

/-- A word of spec/opcode_table.json in wire order: byte 0 (the command byte) first, each byte MSB
first, every bit above `nbits` zero (log 16). -/
def tableBits (nbits w : Nat) : List Bit :=
  (tableBytes longestFrameBytes ((nbits + 7) / 8) w).flatMap fun byte => msbBits byte 8

/-- The instruction the decoder reads from a table word (log 16). -/
def decodeTableWord (nbits w : Nat) : Option Instr :=
  match decode true (tableBits nbits w) with
  | .ok (i, _) => some i
  | .error _ => none

end Sys2Proof
end

