-- ==== Sys2Proof/Machine/State.lean ====
section
/-! DEFINITION. Machine/State.lean: the record `TState` (R25, R28 to R46), the model's own fields beside
it, why a step can stop, and the state after reset (R150). -/

namespace Sys2Proof.Machine

/-- The control state `fsm` (R33). -/
inductive Fsm where
  | idle
  | rxSample
  | rxWaitHigh
  | rxWaitLow
  | handoff
  | tx
deriving DecidableEq, Repr

/-- `rx_result` (R41): the outcome of the last receive. -/
inductive RxResult where
  | none
  | ok (f : Frame)
  | err (info : TimeoutInfo)
deriving DecidableEq, Repr

/-- `tx_pc` (R43): data bit `k` while `k < n`, the device stop symbol at `n`, or the stop marker. -/
inductive TxPc where
  | bit (k : Nat)
  | stop
deriving DecidableEq, Repr

/-- `tx_sub` (R44): the serializer's phase within the current symbol. -/
inductive TxSub where
  | startWait
  | low
  | high
  | doneWait
deriving DecidableEq, Repr

/-- The MODEL's own field for a mask request that R126 holds: not held, held until `fsm = IDLE`, or (after
the draw `later`) held until `fsm = IDLE` with no edge pending. -/
inductive MaskHold where
  | none
  | untilIdle
  | untilClear
deriving DecidableEq, Repr

/-- The MODEL's own record of the environment (R25 says none of it is state of the transceiver): the
inputs of the coming ticks, the choices of the coming draws, how many of each were taken that were not
listed (log 4, log 5), and how many reset inputs there were (log 7). -/
structure Env where
  inputs : List TickInput
  draws : List Nat
  inputIx : Nat
  drawIx : Nat
  resetIx : Nat
deriving DecidableEq, Repr

/-- The machine: the parameters (fixed, R25), the fields of `TState` (R28 to R46), and the model's own
fields `entryDelay`, `maskHold` and `env` (log 8). -/
structure State where
  /-- The parameters of R9 to R21; no rule writes them. -/
  cfg : Config
  /-- `dev_low` (R28). -/
  devLow : Bool
  /-- `prev_level` (R30). -/
  prevLevel : Bit
  /-- `irq_enable` (R31). -/
  irqEnable : Bool
  /-- `edge_pending` (R32). -/
  edgePending : Bool
  /-- `t_edge_pending` (R32). -/
  tEdgePending : Tick
  /-- MODEL's own: the latency R85 draws once for the pending edge. -/
  entryDelay : Tick
  /-- `fsm` (R33). -/
  fsm : Fsm
  /-- `t_base` (R34). -/
  tBase : Tick
  /-- `nbits` (R35). -/
  nbits : Nat
  /-- `need` (R36). -/
  need : Option Nat
  /-- `hdr` (R37). -/
  hdr : Header
  /-- `rx_op` (R38). -/
  rxOp : Byte
  /-- `data` (R39). -/
  data : Block
  /-- `wait_n` (R40). -/
  waitN : Nat
  /-- `t_phase` (R40). -/
  tPhase : Tick
  /-- `rx_result` (R41). -/
  rxResult : RxResult
  /-- `tx_prog` (R42). -/
  txProg : List Bit
  /-- `tx_pc` (R43). -/
  txPc : TxPc
  /-- `tx_sub` (R44). -/
  txSub : TxSub
  /-- `t_sym` (R44). -/
  tSym : Tick
  /-- `t_until` (R44). -/
  tUntil : Tick
  /-- `now` (R45). -/
  now : Tick
  /-- `refused` (R46). -/
  refused : Bool
  /-- MODEL's own: a mask request R126 holds. -/
  maskHold : MaskHold
  /-- MODEL's own: the environment. -/
  env : Env
deriving DecidableEq, Repr

/-- The transceiver has no stop that the spec calls a fault: its one exception is a value posted in
`rx_result` (R133), and nothing else is raised (R138). So no constructor (log 14). -/
inductive Fault where
deriving DecidableEq, Repr

/-- Why the model gives a step no meaning (R23 `refuse`). -/
inductive Refusal where
  /-- Raised by an arm of `exec` for an instruction without a meaning; no arm does. Safe. -/
  | notModelled (mnemonic : String)
  /-- Raised by `step` when a parameter is outside the range 00_scope.md states for it (R9, R12, R13,
  R18, R21): no such configuration exists. Safe. -/
  | parameterOutOfRange
  /-- Raised by `step` when an interval the transceiver measures does not fit the tick counter (R144,
  K15): "A model refuses a configuration in which one is not". Safe. -/
  | counterTooNarrow
deriving DecidableEq, Repr

/-- An environment that lists nothing: every input and draw is a free value. -/
def Env.unlisted : Env :=
  { inputs := [], draws := [], inputIx := 0, drawIx := 0, resetIx := 0 }

/-- The reset state of R150 for a configuration, with the drawn `prev_level` (R30) and the unspecified
contents of `data` (R39) as arguments. -/
def State.resetWith (cfg : Config) (level : Bit) (data : Block) : State where
  cfg := cfg
  devLow := false
  prevLevel := level
  irqEnable := false
  edgePending := false
  tEdgePending := 0
  entryDelay := 0
  fsm := .idle
  tBase := 0
  nbits := 0
  need := none
  hdr := 0#24
  rxOp := 0#8
  data := data
  waitN := 0
  tPhase := 0
  rxResult := .none
  txProg := []
  txPc := .stop
  txSub := .doneWait
  tSym := 0
  tUntil := 0
  now := 0
  refused := false
  maskHold := .none
  env := Env.unlisted

/-- The machine right after reset (R150). DESIGN CHOICE: configuration EX1 (log 3), `prev_level` 1 as in
the spec's own vectors (log 6), `data` all zero (log 7). -/
def State.reset : State :=
  State.resetWith Config.ex1 true (Vector.replicate 32 0#8)

end Sys2Proof.Machine
end

