-- ==== Sys2Proof/Machine/Flags.lean ====
section
/-! DEFINITION. Machine/Flags.lean: the line level, the conditions the rules test, and the status
outputs (R27, R30, R120, R128, R48). -/

namespace Sys2Proof.Machine

/-- What the outside world does in the coming tick: the listed input, or a free one (log 4). -/
def Env.input (e : Env) : TickInput :=
  match e.inputs with
  | x :: _ => x
  | [] => Config.freeInput e.inputIx

/-- `line(now)` (R27): low if the console or this device pulls it low, else released. Reading it has no
side effect (R60). -/
def State.line (s : State) : Bit := !(s.env.input.consoleLow || s.devLow)

/-- A falling edge at this tick (R30): `prev_level = 1 and line(t) = 0`. -/
def State.fall (s : State) : Bool := s.prevLevel && !s.line

/-- The edge trigger is armed (R120): `fsm == IDLE and irq_enable`. -/
def State.armed (s : State) : Bool := s.fsm == .idle && s.irqEnable

/-- `line_idle` (R128): no transaction in progress, no edge waiting to start one, the line released. -/
def State.lineIdle (s : State) : Bool := s.fsm == .idle && !s.edgePending && s.line

/-- A receive result of the form `OK(_)`. -/
def RxResult.isOk : RxResult → Bool
  | .ok _ => true
  | .none => false
  | .err _ => false

/-- The frame in the receive registers is whole: `need != NONE and nbits == need` (R86). -/
def State.frameWhole (s : State) : Bool := s.need == some s.nbits

/-- The codes of R134: `WAIT_HIGH` is 1, `WAIT_LOW` is 2. -/
def waitPhaseCode : WaitPhase → Nat
  | .waitHigh => 1
  | .waitLow => 2

/-- The dispatcher's states of §4.3 as the transceiver shows them (R125). What the dispatcher will answer
to a delivered frame (Responding or Ignored) is not yet visible while it is handed over. -/
inductive DispatcherView where
  | idle
  | receivingCommand
  | respondingOrIgnored
  | responding
  | abortedTimeout
deriving DecidableEq, Repr

/-- R125, read from `fsm` and `rx_result`. -/
def State.dispatcherView (s : State) : DispatcherView :=
  match s.fsm with
  | .idle => .idle
  | .rxSample => .receivingCommand
  | .rxWaitHigh => .receivingCommand
  | .rxWaitLow => .receivingCommand
  | .tx => .responding
  | .handoff =>
    match s.rxResult with
    | .err _ => .abortedTimeout
    | .ok _ => .respondingOrIgnored
    | .none => .respondingOrIgnored

end Sys2Proof.Machine
end

