-- ==== Sys2Proof/Machine/Operands.lean ====
section
/-! DEFINITION. Machine/Operands.lean: the fields of a command frame as the receive registers hold them
(R76, register view), and the shifts that assemble them (R87). -/

namespace Sys2Proof.Machine

/-- The command byte after the 9th bit: `hdr[8:1]` (R76, R88). -/
def commandByte (hdr : Header) : Byte := hdr.extractLsb' 1 8

/-- The LED byte after 16 bits: `hdr[7:0]` (R76). -/
def ledField (hdr : Header) : Byte := hdr.extractLsb' 0 8

/-- The address after 24 bits: `hdr[15:0]`, all 16 bits raw (R51, R76). -/
def addrField (hdr : Header) : Half := hdr.extractLsb' 0 16

/-- `hdr <- {hdr[22:0], b}` (R87). -/
def shiftHeader (hdr : Header) (b : Bit) : Header := hdr.shiftConcat b

/-- `data[j] <- {data[j][6:0], b}` (R87). No frame reaches a `j` above 31 (R94). -/
def shiftData (data : Block) (j : Nat) (b : Bit) : Block :=
  if h : j < 32 then data.set j (data[j].shiftConcat b) else data

/-- The instruction whose frame the receive registers hold: R92's `case rx_op of`, through the decoder's
table. -/
def State.fetched (s : State) : Instr :=
  Instr.ofFields s.rxOp (ledField s.hdr) (addrField s.hdr) s.data

end Sys2Proof.Machine
end

