-- ==== Sys2Proof/Machine/Ops.lean ====
section
/-! DEFINITION. Machine/Ops.lean: the shared operations: draws, the tick source, latching an edge and
re-arming, delivering a frame, taking the one exception (R135) and returning from it (R124), reset
(R150, R151), and the configurations a model refuses (R144). -/

namespace Sys2Proof.Machine

/-! ## The environment -/

/-- Take the next draw (R23 `draw`): the listed choice, or a free value (log 5). -/
def Env.draw (e : Env) : Nat × Env :=
  match e.draws with
  | d :: ds => (d, { e with draws := ds })
  | [] => (Config.freeDraw e.drawIx, { e with drawIx := e.drawIx + 1 })

/-- A drawn number as a choice in `0 .. bound`: every choice in the range stands for itself. -/
def chooseUpTo (bound v : Nat) : Nat :=
  match bound with
  | 0 => 0
  | b + 1 => if v ≤ b + 1 then v else v % (b + 2)

/-- The inputs of this tick are over. -/
def Env.advance (e : Env) : Env :=
  match e.inputs with
  | _ :: xs => { e with inputs := xs }
  | [] => { e with inputIx := e.inputIx + 1 }

/-- Step 5 of R132: `now <- t + 1`. -/
def advanceTime (s : State) : State :=
  { s with now := s.now + 1, env := s.env.advance }

/-! ## The tick source (R144) -/

/-- What a hardware counter of `P_TICK_WIDTH` bits reads at an instant. -/
def counterRead (cfg : Config) (t : Tick) : Nat := t % 2 ^ cfg.tickWidth

/-- The elapsed time between two counter readings, `(c_1 - c_0) mod 2^P_TICK_WIDTH`. -/
def counterElapsed (cfg : Config) (c0 c1 : Nat) : Nat :=
  (c1 + (2 ^ cfg.tickWidth - c0)) % 2 ^ cfg.tickWidth

/-- The intervals the transceiver measures (R144). -/
def measuredIntervals (cfg : Config) : List Tick :=
  [cfg.sampleDelay, cfg.pollTicks, cfg.t0Low, cfg.t0High, cfg.t1Low, cfg.t1High, cfg.tStopLow,
    cfg.entryLatencyMax, cfg.txStartMax, cfg.txDoneMax]

/-- Every measured interval is below `2^P_TICK_WIDTH` (R144). -/
def counterWideEnough (cfg : Config) : Bool :=
  (measuredIntervals cfg).all fun d => decide (d < 2 ^ cfg.tickWidth)

/-- The parameters are in the ranges of R9, R12, R13, R18 and R21. -/
def parametersInRange (cfg : Config) : Bool :=
  decide (1 ≤ cfg.ticksPerUs) && decide (1 ≤ cfg.waitBudget) && decide (1 ≤ cfg.pollTicks)
    && decide (1 ≤ cfg.t0Low) && decide (1 ≤ cfg.t0High) && decide (1 ≤ cfg.t1Low)
    && decide (1 ≤ cfg.t1High) && decide (1 ≤ cfg.tStopLow)
    && decide (Config.minFrameBits ≤ cfg.maxFrameBits)

/-- Why a configuration is refused, if it is (log 13). -/
def configProblem (cfg : Config) : Option Refusal :=
  if !parametersInRange cfg then some .parameterOutOfRange
  else if !counterWideEnough cfg then some .counterTooNarrow
  else none

/-! ## The edge latch -/

/-- `edge_pending <- true; t_edge_pending <- t` (R120, R121), and the draw of the entry latency, once per
edge (R85, log 9). -/
def latchEdge (s : State) : State :=
  { s with
    edgePending := true
    tEdgePending := s.now
    entryDelay := chooseUpTo s.cfg.entryLatencyMax s.env.draw.1
    env := s.env.draw.2 }

/-- Re-arming (R121), on entering `IDLE`: with the trigger enabled, a pending edge is re-based to now. -/
def rearm (s : State) : State :=
  if s.irqEnable && s.edgePending then { s with tEdgePending := s.now } else s

/-! ## The end of a receive -/

/-- The length decision as it stands for the command byte `op` (R88). -/
def decideLength (op : Byte) (s : State) : State :=
  { s with rxOp := op, need := some (frameNeed s.cfg.extStop op) }

/-- Deliver a frame (R92): `rx_result <- OK(f); fsm <- HANDOFF`. -/
def deliver (f : Frame) (s : State) : State :=
  { s with rxResult := .ok f, fsm := .handoff }

/-- A command completes (R95 to R101): the length decision of its byte is on record and its frame is
delivered. -/
def completeCommand (op : Byte) (f : Frame) (s : State) : State :=
  deliver f (decideLength op s)

/-- TAKING THE EXCEPTION (R135), the one `ReceiveTimeout` of R134: the error is posted and the hand-off
entered. The other receive registers keep their values. -/
def raiseTimeout (phase : WaitPhase) (s : State) : State :=
  { s with rxResult := .err { phase := phase, bits := s.nbits }, fsm := .handoff }

/-- THE RETURN to `IDLE` (R124, R142): `rx_result <- NONE; fsm <- IDLE`, and the re-arming of R121. -/
def returnToIdle (s : State) : State :=
  rearm { s with rxResult := .none, fsm := .idle }

/-- A request without meaning (R23 `refuse`, R46): the mark is set and nothing else changes. -/
def refuseRequest (s : State) : State := { s with refused := true }

/-! ## Reset as an event -/

/-- A reset during operation (R151): every field of R150 at its reset value, whatever was in progress is
abandoned. The level is drawn (R30). The contents of `data` are unspecified after each reset (R39, K10):
the model's choice is a free block of its own for each reset input, listed or not (log 7). -/
def applyReset (s : State) : State :=
  { State.resetWith s.cfg (s.env.draw.1 % 2 == 1) (Config.freeBlock s.env.resetIx) with
    env := { s.env.draw.2.advance with resetIx := s.env.resetIx + 1 } }

end Sys2Proof.Machine
end

