-- ==== Sys2Proof/Machine/Transmit.lean ====
section
/-! DEFINITION. Machine/Transmit.lean: the transmit request (R105 to R107) and the serializer (R108 to
R113). -/

namespace Sys2Proof.Machine

/-! ## The request -/

/-- A segment of a valid frame (R106): `1 <= w <= P_MAX_SEG_WIDTH` and `v < 2^w`. -/
def segmentValid (g : Segment) : Bool :=
  decide (1 ≤ g.width) && decide (g.width ≤ Config.maxSegWidth) && decide (g.value < 2 ^ g.width)

/-- The data bits a frame takes, the sum of its widths (R106). -/
def frameWidth (f : ProtocolFrame) : Nat := (f.map Segment.width).sum

/-- Frame validation (R106). -/
def frameValid (cfg : Config) (f : ProtocolFrame) : Bool :=
  !f.isEmpty && f.all segmentValid && decide (frameWidth f ≤ cfg.maxFrameBits)

/-- The frame's data bits in wire order (R80, R105): the segments in order, each MSB first, with no
padding between them (R57). -/
def wireBits (f : ProtocolFrame) : List Bit :=
  f.flatMap fun g => msbBits g.value g.width

/-- When a transmit request is accepted (R105): in `HANDOFF` after `OK(_)`, with a valid frame. -/
def transmitAccepted (f : ProtocolFrame) (s : State) : Bool :=
  s.fsm == .handoff && s.rxResult.isOk && frameValid s.cfg f

/-- `transmit(frame)` (R105): the whole frame is converted at acceptance (R59); any other case is refused
(R106, R107). -/
def transmit (f : ProtocolFrame) (s : State) : State :=
  if transmitAccepted f s then
    { s with
      txProg := wireBits f
      txPc := .bit 0
      txSub := .startWait
      tSym := s.now
      tUntil := s.now + chooseUpTo s.cfg.txStartMax s.env.draw.1
      rxResult := .none
      fsm := .tx
      env := s.env.draw.2 }
  else refuseRequest s

/-! ## The serializer -/

/-- The symbols of the transmission (R118): `tx_prog ++ [stop]`. -/
def State.txSymbols (s : State) : List WireSymbol := s.txProg.map .data ++ [.stop]

/-- The symbol at `tx_pc = k` (41_transmit.md section 2): data bit `k` while `k < n`, else the stop. -/
def symbolAt (prog : List Bit) (k : Nat) : WireSymbol :=
  match prog[k]? with
  | some b => .data b
  | none => .stop

/-- `low(symbol)`. -/
def symbolLow (cfg : Config) : WireSymbol → Tick
  | .data false => cfg.t0Low
  | .data true => cfg.t1Low
  | .stop => cfg.tStopLow

/-- `high(b)` of a data bit. -/
def bitHigh (cfg : Config) : Bit → Tick
  | false => cfg.t0High
  | true => cfg.t1High

/-- A symbol's falling edge: the low part of symbol `k` begins now (R108, R111). Each phase's beginning
is recorded in `t_sym` (R44, log 12). -/
def beginSymbol (k : Nat) (s : State) : State :=
  { s with
    txPc := .bit k
    txSub := .low
    tSym := s.now
    tUntil := s.now + symbolLow s.cfg (symbolAt s.txProg k)
    devLow := true }

/-- A data bit's low part is over (R109, R110): released for the rest of the cell. -/
def releaseBit (b : Bit) (s : State) : State :=
  { s with devLow := false, txSub := .high, tSym := s.now, tUntil := s.now + bitHigh s.cfg b }

/-- The stop pulse is over (R112): released, and the done delay is drawn. -/
def releaseStop (s : State) : State :=
  { s with
    devLow := false
    txSub := .doneWait
    tSym := s.now
    tUntil := s.now + chooseUpTo s.cfg.txDoneMax s.env.draw.1
    env := s.env.draw.2 }

/-- Completion (R113): the stop marker is reached, `transmit` returns, and the trigger re-arms (R121). -/
def txComplete (s : State) : State :=
  rearm { s with txPc := .stop, fsm := .idle }

/-- The end of a symbol's low part: R109 and R110 for a data bit, R112 for the device stop. -/
def endLow (k : Nat) (s : State) : State :=
  match symbolAt s.txProg k with
  | .data b => releaseBit b s
  | .stop => releaseStop s

/-- The one rule of 41_transmit.md section 2 whose condition holds now, if any. No rule of it reads the
line (R117), and none holds outside `TX`. -/
def txRule (s : State) : Option State :=
  if s.fsm == .tx && s.now == s.tUntil then
    match s.txPc with
    | .stop => none
    | .bit k =>
      match s.txSub with
      | .startWait => some (beginSymbol k s)
      | .low => some (endLow k s)
      | .high => some (beginSymbol (k + 1) s)
      | .doneWait => some (txComplete s)
  else none

/-- Apply the holding rules, at most `fuel` of them, until none holds. -/
def txRepeat : Nat → State → State
  | 0, s => s
  | fuel + 1, s =>
    match txRule s with
    | none => s
    | some t => txRepeat fuel t

/-- The serializer in one tick (R132 step 1): "repeating until none holds". Two rules are the most that
can hold in one tick, since every pulse width is at least 1 (R18, log 19). -/
def serialize (s : State) : State := txRepeat 2 s

end Sys2Proof.Machine
end

