-- ==== Sys2Proof/Machine/Control.lean ====
section
/-! DEFINITION. Machine/Control.lean: the release, mask and unmask requests (R124, R126, R127), the
requests of one tick (R132 step 0), and the edge trigger (R120, R121). -/

namespace Sys2Proof.Machine

/-! ## The dispatcher's requests -/

/-- `release()` (R124): accepted in `HANDOFF`, else refused. -/
def release (s : State) : State :=
  if s.fsm == .handoff then returnToIdle s else refuseRequest s

/-- One request of the dispatcher. -/
def dispatcherRequest (s : State) : DispatcherRequest → State
  | .transmit f => transmit f s
  | .release => release s

/-! ## The flush sequence's requests -/

/-- The interrupt is disabled: the end of `mask()` (R126). -/
def disableEdge (s : State) : State := { s with irqEnable := false, maskHold := .none }

/-- The draw of R126 with an edge pending: `now` is 0 of the drawn 0 or 1, `later` is 1. -/
def maskDraw (s : State) : State :=
  let drawn := { s with env := s.env.draw.2 }
  if s.env.draw.1 % 2 == 1 then { drawn with maskHold := .untilClear }
  else if s.cfg.staleEdge == .discard then disableEdge { drawn with edgePending := false }
  else disableEdge drawn

/-- `mask()` from its start (R126): no change while already disabled, held until `fsm = IDLE`, then with
an edge pending the draw decides, and with none it takes effect. -/
def maskAttempt (s : State) : State :=
  if !s.irqEnable then { s with maskHold := .none }
  else if s.fsm != .idle then { s with maskHold := .untilIdle }
  else if s.edgePending then maskDraw s
  else disableEdge s

/-- A held mask looks again (R126 `hold until`). -/
def maskResume (s : State) : State :=
  match s.maskHold with
  | .none => s
  | .untilIdle => maskAttempt s
  | .untilClear => if s.fsm == .idle && !s.edgePending then disableEdge s else s

/-- A mask request: while an earlier one is held it joins it (log 11). -/
def mask (s : State) : State :=
  if s.maskHold == .none then maskAttempt s else s

/-- `unmask()` (R127): always accepted; while already enabled it changes nothing (log 10). -/
def unmask (s : State) : State :=
  if s.irqEnable then s
  else if s.edgePending then { s with irqEnable := true, tEdgePending := s.now }
  else { s with irqEnable := true }

/-- One request of the flush sequence. -/
def flushRequest (s : State) : FlushRequest → State
  | .mask => mask s
  | .unmask => unmask s

/-- Step 0 of R132: the dispatcher's requests, then the flush sequence's, a held one first. That a held
mask looks again here and nowhere else in the tick is the model's choice (log 11). -/
def applyRequests (inp : TickInput) (s : State) : State :=
  inp.flush.foldl flushRequest (maskResume (inp.dispatcher.foldl dispatcherRequest s))

/-! ## The edge trigger -/

/-- `stale_edge(t)` (R121): latched only under `Latch`, and only if none is pending. -/
def staleEdge (s : State) : State :=
  if s.cfg.staleEdge == .latch && !s.edgePending then latchEdge s else s

/-- What a falling edge does (R120): armed and none pending, it starts a receive; armed with one pending,
nothing; not armed, it is stale. -/
def fallingEdge (s : State) : State :=
  if s.armed then (if s.edgePending then s else latchEdge s) else staleEdge s

/-- Step 3 of R132 (R120): `prev_level` is written at every tick. -/
def detectEdge (s : State) : State :=
  { (if s.fall then fallingEdge s else s) with prevLevel := s.line }

end Sys2Proof.Machine
end

