-- ==== Sys2Proof/Machine/Extended.lean ====
section
/-! DEFINITION. Machine/Extended.lean: the meanings of the extended commands, formats F_BRD, F_BWR and
F_KBD (R72 to R74, R97 to R99). Each runs in the tick that samples the frame's last bit, after that bit
is stored or, when it is the console stop bit, discarded. -/

namespace Sys2Proof.Machine

/-- `BLOCK_READ` (R97): `rx_op <- 0x02`, `need <- 24 + s`, `rx_result <- OK(BlockRead addr)` with all 16
address bits raw (R51). -/
def execBlockRead (addr : Half) (s : State) : Host.Outcome State Fault Refusal :=
  .next (completeCommand 0x02#8 (.blockRead addr) s)

/-- `BLOCK_WRITE` (R98): `rx_op <- 0x03`, `need <- 280 + s`, `rx_result <- OK(BlockWrite addr data)`; no
CRC is checked (R74). -/
def execBlockWrite (addr : Half) (data : Block) (s : State) : Host.Outcome State Fault Refusal :=
  .next (completeCommand 0x03#8 (.blockWrite addr data) s)

/-- `KBD_STATUS` (R99): `rx_op <- 0x13`, `need <- 16 + s`, `rx_result <- OK(Kbd led)`. -/
def execKbdStatus (led : Byte) (s : State) : Host.Outcome State Fault Refusal :=
  .next (completeCommand 0x13#8 (.kbd led) s)

end Sys2Proof.Machine
end

