-- ==== Sys2Proof/Machine/SingleByte.lean ====
section
/-! DEFINITION. Machine/SingleByte.lean: the meanings of the single-byte commands, format F_CMD1 (R71,
R95, R96, R100, R101). Each runs in the tick that samples the 9th bit, after that bit is stored. -/

namespace Sys2Proof.Machine

/-- `IDENTIFY` (R95): `rx_op <- 0x00`, `need <- 9`, `rx_result <- OK(Cmd1 0x00)`, `fsm <- HANDOFF`. -/
def execIdentify (s : State) : Host.Outcome State Fault Refusal :=
  .next (completeCommand 0x00#8 (.cmd1 0x00#8) s)

/-- `POLL` (R96). -/
def execPoll (s : State) : Host.Outcome State Fault Refusal :=
  .next (completeCommand 0x01#8 (.cmd1 0x01#8) s)

/-- `IDENTIFY_FF` (R100): not merged into 0x00. -/
def execIdentifyFF (s : State) : Host.Outcome State Fault Refusal :=
  .next (completeCommand 0xFF#8 (.cmd1 0xFF#8) s)

/-- `UNRECOGNIZED` (R101): received and delivered like any single byte (R79). -/
def execUnrecognized (op : Byte) (s : State) : Host.Outcome State Fault Refusal :=
  .next (completeCommand op (.cmd1 op) s)

end Sys2Proof.Machine
end

