-- ==== Sys2Proof/Machine/Dispatch.lean ====
section
/-! DEFINITION. Machine/Dispatch.lean: one arm per row of spec/opcode_table.json. -/

namespace Sys2Proof.Machine

def exec (i : Instr) (s : State) : Host.Outcome State Fault Refusal :=
  match i with
  | .identify => Sys2Proof.Machine.execIdentify s
  | .poll => Sys2Proof.Machine.execPoll s
  | .blockRead addr => Sys2Proof.Machine.execBlockRead addr s
  | .blockWrite addr data => Sys2Proof.Machine.execBlockWrite addr data s
  | .kbdStatus led => Sys2Proof.Machine.execKbdStatus led s
  | .identifyFF => Sys2Proof.Machine.execIdentifyFF s
  | .unrecognized op => Sys2Proof.Machine.execUnrecognized op s

end Sys2Proof.Machine
end

