-- ==== Sys2Proof/Machine/Receive.lean ====
section
/-! DEFINITION. Machine/Receive.lean: the receive path (R85 to R92): the bit-serial fetch of a command
frame, which runs the instruction at the sample of the frame's last bit. -/

namespace Sys2Proof.Machine

/-! ## Start -/

/-- A receive starts now (R85): the trigger is armed, an edge is pending, and its entry latency is over. -/
def startDue (s : State) : Bool :=
  s.armed && s.edgePending && s.now == s.tEdgePending + s.entryDelay

/-- The start of a receive (R85, R141). -/
def rxStart (s : State) : State :=
  { s with
    fsm := .rxSample
    tBase := s.now
    nbits := 0
    need := none
    hdr := 0#24
    rxOp := 0#8
    edgePending := false
    rxResult := .none }

/-! ## One bit -/

/-- `rx_store(b)` (R87), with `nbits` already counting the bit. -/
def rxStore (b : Bit) (s : State) : State :=
  if s.need.isSome && hasStop s.cfg.extStop s.rxOp && s.frameWhole then s
  else if s.nbits ≤ 24 then { s with hdr := shiftHeader s.hdr b }
  else { s with data := shiftData s.data ((s.nbits - 25) / 8) b }

/-- `rx_classify()` (R88): the command byte is rx bits 1 to 8. -/
def rxClassify (s : State) : State := decideLength (commandByte s.hdr) s

/-- A sampled bit is counted, stored, and at the 9th bit the length is decided (R86, first four lines). -/
def rxTake (b : Bit) (s : State) : State :=
  let stored := rxStore b { s with nbits := s.nbits + 1 }
  if stored.nbits == 9 && stored.need.isNone then rxClassify stored else stored

/-- Between two bits of a frame, phase A begins (R86, R91). -/
def enterWaitHigh (s : State) : State :=
  { s with fsm := .rxWaitHigh, waitN := 0, tPhase := s.now }

/-- The sample instant (R86): `now = t_base + P_SAMPLE_DELAY`. -/
def sampleDue (s : State) : Bool :=
  s.fsm == .rxSample && s.now == s.tBase + s.cfg.sampleDelay

/-- The sample (R86): the line's level is the bit (R67). If the frame is whole its instruction runs,
which delivers it (R92); else phase A begins. -/
def rxSample (s : State) : Host.Outcome State Fault Refusal :=
  let taken := rxTake s.line s
  if taken.frameWhole then exec taken.fetched taken else .next (enterWaitHigh taken)

/-! ## The busy-wait phases -/

/-- The instant of a phase's next read (R89, R90): `now = t_phase + (wait_n + 1) * P_POLL_TICKS`. -/
def readDue (s : State) : Bool :=
  s.now == s.tPhase + (s.waitN + 1) * s.cfg.pollTicks

/-- A read in a phase is counted; if it was the budget's last the timeout is raised (R89, R90). -/
def countRead (phase : WaitPhase) (s : State) : State :=
  if s.waitN + 1 == s.cfg.waitBudget then raiseTimeout phase { s with waitN := s.waitN + 1 }
  else { s with waitN := s.waitN + 1 }

/-- One read of phase A (R89). -/
def rxReadHigh (s : State) : State :=
  if s.line then { s with fsm := .rxWaitLow, waitN := 0, tPhase := s.now }
  else countRead .waitHigh s

/-- One read of phase B (R90). The first low read is the detected falling edge of the next bit. -/
def rxReadLow (s : State) : State :=
  if s.line then countRead .waitLow s
  else { s with waitN := s.waitN + 1, fsm := .rxSample, tBase := s.now }

/-! ## Step 4 of R132 -/

/-- The one rule among R85, R86, R89 and R90 whose time is now, if any. -/
def rxRule (s : State) : Option (Host.Outcome State Fault Refusal) :=
  match s.fsm with
  | .idle => if startDue s then some (.next (rxStart s)) else none
  | .rxSample => if sampleDue s then some (rxSample s) else none
  | .rxWaitHigh => if readDue s then some (.next (rxReadHigh s)) else none
  | .rxWaitLow => if readDue s then some (.next (rxReadLow s)) else none
  | .handoff => none
  | .tx => none

/-- Apply the due rules, at most `fuel` of them, until none holds. -/
def rxRepeat : Nat → State → Host.Outcome State Fault Refusal
  | 0, s => .next s
  | fuel + 1, s =>
    match rxRule s with
    | none => .next s
    | some (.next t) => rxRepeat fuel t
    | some (.fault r) => .fault r
    | some (.refused r) => .refused r

/-- The receive path in one tick (R132 step 4): "repeating until none holds". Two rules are the most that
can hold in one tick, since a phase's first read is at least one tick away (R13, log 19). -/
def receive (s : State) : Host.Outcome State Fault Refusal := rxRepeat 2 s

end Sys2Proof.Machine
end

