-- ==== Sys2Proof/Machine/Tick.lean ====
section
/-! DEFINITION. Machine/Tick.lean: one tick in the order of R132, and loading a console frame so that the
next tick samples its last bit. -/

namespace Sys2Proof.Machine

/-- Steps 0 to 3 of R132: requests, serializer, line (`State.line` from here on), edge detector. -/
def settle (s : State) : State :=
  detectEdge (serialize (applyRequests s.env.input s))

/-- Step 5 of R132, after a step 4 that went on. -/
def finishTick : Host.Outcome State Fault Refusal → Host.Outcome State Fault Refusal
  | .next t => .next (advanceTime t)
  | .fault r => .fault r
  | .refused r => .refused r

/-- One tick (R132); a reset in it takes the place of all of it (R151, log 20). -/
def tick (s : State) : Host.Outcome State Fault Refusal :=
  if s.env.input.reset then .next (applyReset s)
  else finishTick (receive (settle s))

/-- One tick of a machine whose configuration the model does not refuse (R144, log 13). -/
def checkedTick (s : State) : Host.Outcome State Fault Refusal :=
  match configProblem s.cfg with
  | some r => .refused r
  | none => tick s

/-- The bits of data byte `j` among these, shifted into what the byte held (R87). -/
def loadByte (bits : List Bit) (old : Block) (j : Fin 32) : Byte :=
  ((bits.drop (24 + 8 * j.val)).take 8).foldl BitVec.shiftConcat old[j]

/-- The receive registers after a receive that has taken these header and data bits of one frame, in
closed form (R85 to R88, R76). -/
def loadBits (bits : List Bit) (s : State) : State :=
  { rxStart s with
    nbits := bits.length
    need := if bits.length < 9 then none else some (frameNeed s.cfg.extStop (bitField bits 0 8))
    hdr := bitField bits 0 24
    rxOp := if bits.length < 9 then 0#8 else bitField bits 0 8
    data := Vector.ofFn (loadByte bits s.data) }

/-- The state in which all bits of a frame but the last are received, and the coming tick samples the
last at level `b` (R86): the last bit's edge was detected `P_SAMPLE_DELAY` ticks ago, with the trigger
enabled and the device released, and the console drives the level. -/
def awaitLastBit (bits : List Bit) (b : Bit) (s : State) : State :=
  { loadBits bits s with
    now := s.now + s.cfg.sampleDelay
    devLow := false
    irqEnable := true
    env := { s.env with inputs := { consoleLow := !b } :: s.env.inputs.tail } }

/-- A frame of a table word, as `awaitLastBit` takes it. -/
def loadTableWord (nbits w : Nat) (s : State) : State :=
  let bits := tableBits nbits w
  let n := frameNeed s.cfg.extStop (bitField bits 0 8)
  awaitLastBit (bits.take (n - 1)) (bits.getD (n - 1) false) s

end Sys2Proof.Machine
end

