-- ==== Sys2Proof/Machine/Step.lean ====
section
/-! DEFINITION. Machine/Step.lean: the step (one tick of R132) and where it fetches its next
instruction (the receive registers and the line, log 15). -/

namespace Sys2Proof.Machine

/-- One step of the machine is one tick (R24, R132). -/
def step (s : State) : Host.Outcome State Fault Refusal := checkedTick s

/-- The state whose next step fetches and runs the frame of a table word: all its bits but the last are
in the receive registers, and the console drives the last at the sample instant (log 15). -/
def State.withFetchWord (s : State) (nbits w : Nat) : State := loadTableWord nbits w s

end Sys2Proof.Machine
end

