-- ==== Sys2Proof/Safety.lean ====
section
/-! DEFINITION. Safety.lean: the terms claims are stated in: the frame an instruction delivers, the
invariant of the machine, and waveforms. -/

namespace Sys2Proof

/-- The frame a command delivers (R77, R95 to R101). -/
def Instr.frame : Instr → Frame
  | .identify => .cmd1 0x00#8
  | .poll => .cmd1 0x01#8
  | .blockRead addr => .blockRead addr
  | .blockWrite addr data => .blockWrite addr data
  | .kbdStatus led => .kbd led
  | .identifyFF => .cmd1 0xFF#8
  | .unrecognized op => .cmd1 op

namespace Machine

/-! ## Runs -/

/-- `k` steps of the machine, stopping at the first stop. -/
abbrev run (k : Nat) (s : State) : Host.Outcome State Fault Refusal := Sys2Proof.core.run k s

/-- The next `n` inputs are listed in the state, and none of them is a reset. -/
def listedNoReset (n : Nat) (s : State) : Prop :=
  n ≤ s.env.inputs.length ∧ ∀ x ∈ s.env.inputs.take n, x.reset = false

/-- The coming tick brings nothing but the console's drive. -/
def quietInput (s : State) : Prop :=
  s.env.input.dispatcher = [] ∧ s.env.input.flush = [] ∧ s.env.input.reset = false

/-! ## The invariant -/

/-- The device pulls the line low only in the low part of a symbol it transmits (R28, R93). -/
def DriveInv (s : State) : Prop :=
  s.devLow = true → s.fsm = .tx ∧ s.txSub = .low

/-- The serializer (R42 to R44): its program fits, its program counter is off the stop marker exactly
while `fsm = TX`, each phase stands where the rules put it, has begun, and its end has not been missed. -/
structure TxInv (s : State) : Prop where
  fits : s.txProg.length ≤ s.cfg.maxFrameBits
  parked : s.fsm ≠ .tx → s.txPc = .stop
  running : s.fsm = .tx → ∃ k, s.txPc = .bit k ∧ k ≤ s.txProg.length
    ∧ (s.txSub = .startWait → k = 0) ∧ (s.txSub = .high → k < s.txProg.length)
    ∧ (s.txSub = .doneWait → k = s.txProg.length)
  low : s.fsm = .tx → s.txSub = .low → s.devLow = true
  began : s.fsm = .tx → s.tSym ≤ s.now
  due : s.fsm = .tx → s.now ≤ s.tUntil

/-- A receive in progress (R35, R36): before the 9th bit no length is decided, after it the frame is not
yet whole. -/
def inFrame (s : State) : Prop :=
  (s.need = none ∧ s.nbits ≤ 8) ∨ (∃ n, s.need = some n ∧ 9 ≤ s.nbits ∧ s.nbits < n)

/-- The receive path (R34 to R36, R40, R41): counts in range, the length decision is `need(rx_op)`, the
bit's edge or the phase's last read lies behind, and the next instant has not been missed. -/
structure RxInv (s : State) : Prop where
  count : s.nbits ≤ 281
  decided : ∀ n, s.need = some n → n = frameNeed s.cfg.extStop s.rxOp
  sampling : s.fsm = .rxSample → inFrame s ∧ s.tBase ≤ s.now
    ∧ s.now ≤ s.tBase + s.cfg.sampleDelay
  waitingHigh : s.fsm = .rxWaitHigh → inFrame s ∧ 1 ≤ s.nbits ∧ s.waitN < s.cfg.waitBudget
    ∧ s.tPhase + s.waitN * s.cfg.pollTicks ≤ s.now
    ∧ s.now ≤ s.tPhase + (s.waitN + 1) * s.cfg.pollTicks
  waitingLow : s.fsm = .rxWaitLow → inFrame s ∧ 1 ≤ s.nbits ∧ s.waitN < s.cfg.waitBudget
    ∧ s.tPhase + s.waitN * s.cfg.pollTicks ≤ s.now
    ∧ s.now ≤ s.tPhase + (s.waitN + 1) * s.cfg.pollTicks

/-- The hand-off (R33, R41): a result is posted exactly while `fsm = HANDOFF`; a delivered frame is whole,
and a timeout tells the bits sampled, 1 to 280 (R134). -/
structure ResultInv (s : State) : Prop where
  posted : s.fsm = .handoff ↔ s.rxResult ≠ .none
  whole : ∀ f, s.rxResult = .ok f → s.need = some s.nbits
  timeout : ∀ info, s.rxResult = .err info → info.bits = s.nbits ∧ 1 ≤ info.bits ∧ info.bits ≤ 280

/-- The edge trigger (R31, R32, R85, R129): while masked the machine is idle; while a mask is held (R126) the
trigger is enabled; the latency of a pending edge is in range; and while armed its start has not been missed. -/
structure EdgeInv (s : State) : Prop where
  masked : s.irqEnable = false → s.fsm = .idle
  held : s.maskHold ≠ .none → s.irqEnable = true
  latency : s.entryDelay ≤ s.cfg.entryLatencyMax
  due : s.fsm = .idle → s.irqEnable = true → s.edgePending = true →
    s.now ≤ s.tEdgePending + s.entryDelay

/-- The invariant of the machine between two ticks. -/
structure Inv (s : State) : Prop where
  drive : DriveInv s
  tx : TxInv s
  rx : RxInv s
  result : ResultInv s
  edge : EdgeInv s

/-! ## Waveforms -/

/-- The console's drive of a tick, with no request and no reset. -/
def driveInput (low : Bool) : TickInput := { consoleLow := low }

/-- A cell of the console's: low for `lo b` ticks, then released for `hi b` ticks (R82, R103). -/
def consoleCell (lo hi : Bit → Tick) (b : Bit) : List TickInput :=
  List.replicate (lo b) (driveInput true) ++ List.replicate (hi b) (driveInput false)

/-- The console's waveform of a list of bits. -/
def consoleWave (lo hi : Bit → Tick) (bits : List Bit) : List TickInput :=
  bits.flatMap (consoleCell lo hi)

/-- R103's conditions, for console cells of the same shape for equal bits and edges detected at most `e`
ticks late. -/
structure WellTimed (cfg : Config) (lo hi : Bit → Tick) (e : Tick) : Prop where
  readsZero : cfg.sampleDelay + e < lo false
  readsOne : lo true ≤ cfg.sampleDelay ∧ cfg.sampleDelay + e < lo true + hi true
  gapSeen : ∀ b, cfg.pollTicks ≤ hi b
  gapInBudget : ∀ b, lo b ≤ cfg.sampleDelay + cfg.waitBudget * cfg.pollTicks
  gapAfterOne : cfg.sampleDelay + e + cfg.pollTicks < lo true + hi true
  edgeSeen : ∀ b, cfg.pollTicks ≤ lo b
  edgeInBudget : ∀ b, hi b ≤ cfg.waitBudget * cfg.pollTicks

/-- A data bit on the line, low and then released (R109, R110). -/
def deviceCell (cfg : Config) : Bit → List Bool
  | false => List.replicate cfg.t0Low true ++ List.replicate cfg.t0High false
  | true => List.replicate cfg.t1Low true ++ List.replicate cfg.t1High false

/-- `dev_low` of a whole transmission in closed form (R115), from the tick of acceptance to the tick
before `transmit` returns: the start delay, the data cells, the stop pulse, the done delay. -/
def deviceWave (cfg : Config) (startDelay doneDelay : Tick) (bits : List Bit) : List Bool :=
  List.replicate startDelay false ++ bits.flatMap (deviceCell cfg)
    ++ List.replicate cfg.tStopLow true ++ List.replicate doneDelay false

end Machine
end Sys2Proof
end

