-- ==== Sys2Proof/Certificates/Slice0/Obligations.lean ====
section
/-! DEFINITION. Certificates/Slice0/Obligations.lean: the statements for the provers. Every statement
about a state is about every configuration, since a state carries its own. -/

open Sys2Proof Sys2Proof.Machine

/-! ## Encoding -/

/-- Frames written out bit by bit from R71 to R74 decode to the instructions they stand for. -/
def Obligations.KnownFramesDecode : Prop :=
  decode true [false, false, false, false, false, false, false, false, true] = .ok (.identify, [])
  ∧ decode true [false, false, false, false, false, false, false, true, true] = .ok (.poll, [])
  ∧ decode true [true, true, true, true, true, true, true, true, false] = .ok (.identifyFF, [])
  ∧ decode true [false, true, false, false, false, false, true, false, true]
      = .ok (.unrecognized 0x42#8, [])
  ∧ decode true [false, false, false, true, false, false, true, true,
      false, false, false, false, false, true, false, true, true] = .ok (.kbdStatus 0x05#8, [])
  ∧ decode false [false, false, false, false, false, false, true, false,
      true, false, false, false, false, false, false, false,
      false, false, false, false, false, false, false, true] = .ok (.blockRead 0x8001#16, [])

/-- Decode of encode, for every well-formed instruction, with every operand, either stop-bit level and
either value of `P_EXT_STOP`; what follows the frame is left over. -/
def Obligations.DecodeOfEncodeReturnsTheInstruction : Prop :=
  ∀ (extStop stop : Bool) (i : Instr) (rest : List Bit), i.wf = true →
    decode extStop (encode extStop stop i ++ rest) = .ok (i, rest)

/-- Encode of decode: a decoded frame is the encoding of its instruction, with some stop bit. -/
def Obligations.DecodedBitsAreTheEncoding : Prop :=
  ∀ (extStop : Bool) (bits : List Bit) (i : Instr) (rest : List Bit),
    decode extStop bits = .ok (i, rest) →
      i.wf = true ∧ ∃ stop, bits = encode extStop stop i ++ rest

/-- No command byte is illegal (R79): with enough bits after it, each decodes, to an instruction of that
byte, and takes exactly the bits of its length. -/
def Obligations.EveryCommandByteDecodes : Prop :=
  ∀ (extStop : Bool) (op : Byte) (bits : List Bit), frameNeed extStop op ≤ 8 + bits.length →
    ∃ i rest, decode extStop (msbBits op.toNat 8 ++ bits) = .ok (i, rest) ∧ i.opcode = op
      ∧ rest.length + frameNeed extStop op = 8 + bits.length

/-- The frame lengths of R70's table, `s` being 1 exactly when `P_EXT_STOP` holds. -/
def Obligations.FrameLengthsByCommandByte : Prop :=
  ∀ (extStop : Bool) (op : Byte),
    (op = 0x02#8 → frameNeed extStop op = 24 + extStop.toNat)
    ∧ (op = 0x03#8 → frameNeed extStop op = 280 + extStop.toNat)
    ∧ (op = 0x13#8 → frameNeed extStop op = 16 + extStop.toNat)
    ∧ (op ≠ 0x02#8 → op ≠ 0x03#8 → op ≠ 0x13#8 → frameNeed extStop op = 9)

/-! ## The commands -/

/-- The single-byte commands complete: the byte is latched, the length is 9, the frame is posted and the
hand-off entered; nothing else changes. -/
def Obligations.SingleByteCommandsComplete : Prop :=
  ∀ s : State,
    exec .identify s = .next { s with
      rxOp := 0x00#8, need := some 9, rxResult := .ok (.cmd1 0x00#8), fsm := .handoff }
    ∧ exec .poll s = .next { s with
      rxOp := 0x01#8, need := some 9, rxResult := .ok (.cmd1 0x01#8), fsm := .handoff }
    ∧ exec .identifyFF s = .next { s with
      rxOp := 0xFF#8, need := some 9, rxResult := .ok (.cmd1 0xFF#8), fsm := .handoff }
    ∧ ∀ op : Byte, (Instr.unrecognized op).wf = true →
      exec (.unrecognized op) s = .next { s with
        rxOp := op, need := some 9, rxResult := .ok (.cmd1 op), fsm := .handoff }

/-- The accessory block read completes, with all 16 address bits raw. -/
def Obligations.BlockReadCompletes : Prop :=
  ∀ (addr : Half) (s : State), exec (.blockRead addr) s = .next { s with
    rxOp := 0x02#8, need := some (24 + s.cfg.extStop.toNat)
    rxResult := .ok (.blockRead addr), fsm := .handoff }

/-- The accessory block write completes, with the address and the 32 bytes. -/
def Obligations.BlockWriteCompletes : Prop :=
  ∀ (addr : Half) (data : Block) (s : State), exec (.blockWrite addr data) s = .next { s with
    rxOp := 0x03#8, need := some (280 + s.cfg.extStop.toNat)
    rxResult := .ok (.blockWrite addr data), fsm := .handoff }

/-- The keyboard status exchange completes, with the LED byte. -/
def Obligations.KbdStatusCompletes : Prop :=
  ∀ (led : Byte) (s : State), exec (.kbdStatus led) s = .next { s with
    rxOp := 0x13#8, need := some (16 + s.cfg.extStop.toNat)
    rxResult := .ok (.kbd led), fsm := .handoff }

/-- The frame of every command: IDENTIFY, POLL, BLOCK_READ, BLOCK_WRITE, KBD_STATUS, IDENTIFY_FF and
UNRECOGNIZED leave every field but `rx_op`, `need`, `rx_result` and `fsm` unchanged: the buffers `hdr`,
`data` and `tx_prog`, the line, the trigger, the serializer, the clock and the refusal mark among them. -/
def Obligations.CommandsLeaveAllElse : Prop :=
  ∀ (i : Instr) (s t : State), exec i s = .next t →
    t = { s with rxOp := t.rxOp, need := t.need, rxResult := t.rxResult, fsm := t.fsm }

/-! ## The fetch -/

/-- A step runs the fetched instruction: after requests, serializer, line and edge detector, when the
sample is due and its bit makes the frame whole, the step is `exec` of the instruction the receive
registers hold, and then time goes on by one tick. -/
def Obligations.StepRunsTheFetchedInstruction : Prop :=
  ∀ (s : State) (i : Instr), configProblem s.cfg = none → s.env.input.reset = false →
    sampleDue (settle s) = true →
    (rxTake (settle s).line (settle s)).frameWhole = true →
    (rxTake (settle s).line (settle s)).fetched = i →
    step s = finishTick (exec i (rxTake (settle s).line (settle s)))

/-- The receive registers spell the frame: taking the bits of an instruction's encoding one by one from
the start of a receive makes the frame whole at its last bit and at no bit before, and what is fetched
then is the instruction. -/
def Obligations.ReceivedBitsSpellTheInstruction : Prop :=
  ∀ (s : State) (stop : Bool) (i : Instr), i.wf = true →
    (∀ k, k < (encode s.cfg.extStop stop i).length →
      (((encode s.cfg.extStop stop i).take k).foldl (fun t b => rxTake b t) (rxStart s)).frameWhole
        = false)
    ∧ ((encode s.cfg.extStop stop i).foldl (fun t b => rxTake b t) (rxStart s)).frameWhole = true
    ∧ ((encode s.cfg.extStop stop i).foldl (fun t b => rxTake b t) (rxStart s)).fetched = i
    ∧ ((encode s.cfg.extStop stop i).foldl (fun t b => rxTake b t) (rxStart s)).rxOp = i.opcode
    ∧ ((encode s.cfg.extStop stop i).foldl (fun t b => rxTake b t) (rxStart s)).nbits
        = (encode s.cfg.extStop stop i).length

/-- The closed form with which a frame is loaded is the receive path's own: the same state as taking the
header and data bits one by one. -/
def Obligations.LoadedBitsAreTheBitsReceived : Prop :=
  ∀ (s : State) (bits : List Bit),
    (9 ≤ bits.length → bits.length ≤ (formatOf (bitField bits 0 8)).bodyBits) →
    loadBits bits s = bits.foldl (fun t b => rxTake b t) (rxStart s)

/-- With all bits of an instruction's frame but the last received, the step that samples the last one on
the line delivers the instruction's frame, whatever the rest of the state. -/
def Obligations.LastBitDeliversTheFrame : Prop :=
  ∀ (s : State) (stop : Bool) (i : Instr), configProblem s.cfg = none → i.wf = true →
    ∃ t, step (awaitLastBit (encode s.cfg.extStop stop i).dropLast
        ((encode s.cfg.extStop stop i).getLastD false) s) = .next t
      ∧ t.rxResult = .ok i.frame ∧ t.fsm = .handoff ∧ t.rxOp = i.opcode
      ∧ t.nbits = (encode s.cfg.extStop stop i).length ∧ t.need = some t.nbits

/-! ## The receive path -/

/-- Storing a bit and deciding the length (R87, R88). Before the 9th bit the header shifts; the 9th bit
shifts in and then the command byte is rx bits 1 to 8 and the length `need(op)`; the stop bit is
discarded; other bits up to the 24th shift into the header; later bits shift into data byte
`(nbits - 25) div 8` and no other. -/
def Obligations.BitsAreStoredMsbFirst : Prop :=
  ∀ (b : Bit) (s : State),
    (s.need = none → s.nbits + 1 < 9 →
      ∃ h, rxTake b s = { s with nbits := s.nbits + 1, hdr := h }
        ∧ h.toNat = (2 * s.hdr.toNat + b.toNat) % 2 ^ 24)
    ∧ (s.need = none → s.nbits + 1 = 9 →
      ∃ h op, rxTake b s = { s with
          nbits := 9, hdr := h, rxOp := op, need := some (frameNeed s.cfg.extStop op) }
        ∧ h.toNat = (2 * s.hdr.toNat + b.toNat) % 2 ^ 24 ∧ op.toNat = h.toNat / 2 % 2 ^ 8)
    ∧ (∀ n, s.need = some n → hasStop s.cfg.extStop s.rxOp = true → s.nbits + 1 = n →
      rxTake b s = { s with nbits := s.nbits + 1 })
    ∧ (∀ n, s.need = some n → (hasStop s.cfg.extStop s.rxOp = false ∨ s.nbits + 1 ≠ n) →
      s.nbits + 1 ≤ 24 →
      ∃ h, rxTake b s = { s with nbits := s.nbits + 1, hdr := h }
        ∧ h.toNat = (2 * s.hdr.toNat + b.toNat) % 2 ^ 24)
    ∧ (∀ n, s.need = some n → (hasStop s.cfg.extStop s.rxOp = false ∨ s.nbits + 1 ≠ n) →
      25 ≤ s.nbits + 1 → s.nbits + 1 ≤ 280 →
      ∃ d, rxTake b s = { s with nbits := s.nbits + 1, data := d }
        ∧ ∀ j : Fin 32,
          (j.val = (s.nbits + 1 - 25) / 8 → d[j].toNat = (2 * s.data[j].toNat + b.toNat) % 2 ^ 8)
          ∧ (j.val ≠ (s.nbits + 1 - 25) / 8 → d[j] = s.data[j]))

/-- The start of a receive (R85): armed, pending, and the entry latency just over (the latency drawn when
the edge was latched, the model's reading in log 9). With a sample delay of 0 the first sample falls in
the same tick. -/
def Obligations.ReceiveStartsWhenDue : Prop :=
  ∀ s : State, configProblem s.cfg = none → s.env.input.reset = false → s.env.input.flush = [] →
    s.maskHold = .none → s.fsm = .idle → s.irqEnable = true → s.edgePending = true →
    s.now = s.tEdgePending + s.entryDelay →
    ∃ t, step s = .next t ∧ t.tBase = s.now ∧ t.need = none ∧ t.rxOp = 0#8
      ∧ t.edgePending = false ∧ t.rxResult = .none
      ∧ (0 < s.cfg.sampleDelay → t.fsm = .rxSample ∧ t.nbits = 0 ∧ t.hdr = 0#24)
      ∧ (s.cfg.sampleDelay = 0 → t.fsm = .rxWaitHigh ∧ t.nbits = 1 ∧ t.hdr.toNat = s.line.toNat
          ∧ t.waitN = 0 ∧ t.tPhase = s.now)

/-- The sample of a bit that is not the frame's last (R86): the line's level is taken, and phase A
begins. -/
def Obligations.SampleTakesTheLineLevel : Prop :=
  ∀ s : State, configProblem s.cfg = none → s.env.input.reset = false →
    s.fsm = .rxSample → s.now = s.tBase + s.cfg.sampleDelay →
    (rxTake s.line s).frameWhole = false →
    ∃ t, step s = .next t ∧ t.fsm = .rxWaitHigh ∧ t.waitN = 0 ∧ t.tPhase = s.now
      ∧ t.nbits = s.nbits + 1 ∧ t.hdr = (rxTake s.line s).hdr ∧ t.data = (rxTake s.line s).data
      ∧ t.rxOp = (rxTake s.line s).rxOp ∧ t.need = (rxTake s.line s).need
      ∧ t.rxResult = s.rxResult ∧ t.tBase = s.tBase

/-- One read of phase A (R89): a high read ends it, the budget's last low read raises the timeout, any
other low read is counted. No received bit changes. -/
def Obligations.PhaseAReads : Prop :=
  ∀ s : State, configProblem s.cfg = none → s.env.input.reset = false → s.fsm = .rxWaitHigh →
    s.now = s.tPhase + (s.waitN + 1) * s.cfg.pollTicks →
    ∃ t, step s = .next t
      ∧ (s.line = true → t.fsm = .rxWaitLow ∧ t.waitN = 0 ∧ t.tPhase = s.now ∧ t.rxResult = s.rxResult)
      ∧ (s.line = false → s.waitN + 1 ≠ s.cfg.waitBudget →
          t.fsm = .rxWaitHigh ∧ t.waitN = s.waitN + 1 ∧ t.tPhase = s.tPhase ∧ t.rxResult = s.rxResult)
      ∧ (s.line = false → s.waitN + 1 = s.cfg.waitBudget →
          t.fsm = .handoff ∧ t.waitN = s.waitN + 1
          ∧ t.rxResult = .err { phase := .waitHigh, bits := s.nbits })
      ∧ t.nbits = s.nbits ∧ t.need = s.need ∧ t.hdr = s.hdr ∧ t.rxOp = s.rxOp ∧ t.data = s.data

/-- One read of phase B (R90): a low read is the next bit's detected edge, the budget's last high read
raises the timeout, any other high read is counted; no bit received before changes. With a sample delay
of 0 the detected bit is a 0 sampled in the same tick (R86): it is stored as `rxTake` stores it
(BitsAreStoredMsbFirst), and then phase A begins or, if it was the frame's last, its instruction's frame
is posted. -/
def Obligations.PhaseBReads : Prop :=
  ∀ s : State, configProblem s.cfg = none → s.env.input.reset = false → s.fsm = .rxWaitLow →
    s.now = s.tPhase + (s.waitN + 1) * s.cfg.pollTicks →
    ∃ t, step s = .next t
      ∧ (s.line = false → t.tBase = s.now
          ∧ (0 < s.cfg.sampleDelay → t.fsm = .rxSample ∧ t.waitN = s.waitN + 1 ∧ t.nbits = s.nbits
              ∧ t.hdr = s.hdr ∧ t.data = s.data ∧ t.need = s.need ∧ t.rxOp = s.rxOp
              ∧ t.rxResult = s.rxResult)
          ∧ (s.cfg.sampleDelay = 0 → t.nbits = s.nbits + 1 ∧ t.hdr = (rxTake false s).hdr
              ∧ t.data = (rxTake false s).data ∧ t.rxOp = (rxTake false s).rxOp
              ∧ ((rxTake false s).frameWhole = false → t.fsm = .rxWaitHigh ∧ t.waitN = 0
                  ∧ t.tPhase = s.now ∧ t.need = (rxTake false s).need ∧ t.rxResult = s.rxResult)
              ∧ ((rxTake false s).frameWhole = true → t.fsm = .handoff
                  ∧ t.need = some (frameNeed s.cfg.extStop t.rxOp)
                  ∧ t.rxResult = .ok (rxTake false s).fetched.frame)))
      ∧ (s.line = true → s.waitN + 1 ≠ s.cfg.waitBudget →
          t.fsm = .rxWaitLow ∧ t.waitN = s.waitN + 1 ∧ t.tPhase = s.tPhase ∧ t.rxResult = s.rxResult)
      ∧ (s.line = true → s.waitN + 1 = s.cfg.waitBudget →
          t.fsm = .handoff ∧ t.waitN = s.waitN + 1
          ∧ t.rxResult = .err { phase := .waitLow, bits := s.nbits })
      ∧ (s.line = true → t.nbits = s.nbits ∧ t.need = s.need ∧ t.hdr = s.hdr ∧ t.rxOp = s.rxOp
          ∧ t.data = s.data)

/-- The line is read at the named instants only (R104): in a receive or a hand-off, at a tick at which no
sample and no read is due (and, in a hand-off, in which the dispatcher waits), the console's level changes
nothing but what the edge detector saw: `prev_level` and, under `Latch`, the latched edge with the
latency drawn for it. -/
def Obligations.LineIsReadOnlyWhenDue : Prop :=
  ∀ (s : State) (x : TickInput) (rest : List TickInput), configProblem s.cfg = none →
    s.fsm ≠ .idle → s.fsm ≠ .tx → x.reset = false → (s.fsm = .handoff → x.dispatcher = []) →
    (s.fsm = .rxSample → s.now ≠ s.tBase + s.cfg.sampleDelay) →
    (s.fsm = .rxWaitHigh ∨ s.fsm = .rxWaitLow →
      s.now ≠ s.tPhase + (s.waitN + 1) * s.cfg.pollTicks) →
    ∃ t u, step { s with env := { s.env with inputs := x :: rest } } = .next t
      ∧ step { s with env := { s.env with
          inputs := { x with consoleLow := !x.consoleLow } :: rest } } = .next u
      ∧ (s.cfg.staleEdge = .discard → u = { t with prevLevel := u.prevLevel })
      ∧ (s.cfg.staleEdge = .latch → u = { t with
          prevLevel := u.prevLevel, edgePending := u.edgePending, tEdgePending := u.tEdgePending
          entryDelay := u.entryDelay
          env := { t.env with draws := u.env.draws, drawIx := u.env.drawIx } })

/-- Every receive ends (R102), whatever the console and the neighbours do, as long as no reset comes in
between, with `bound = 281 * P_SAMPLE_DELAY + 280 * 2 * P_WAIT_BUDGET * P_POLL_TICKS`: a receive that starts
in the tick `t0` posts its result in the tick `t0 + bound` at the latest, a sample delay of 0 included; so
does, from its first edge's detection, one that has sampled no bit; and one in progress, wherever it
stands, within `bound` ticks from now. (A result posted in a tick stands in the state with `now` one
more.) -/
def Obligations.EveryReceiveEnds : Prop :=
  ∀ (s : State) (bound : Nat), configProblem s.cfg = none → Inv s →
    bound = 281 * s.cfg.sampleDelay + 280 * (2 * (s.cfg.waitBudget * s.cfg.pollTicks)) →
    listedNoReset (bound + 1) s →
    (startDue (settle s) = true →
      ∃ k t, run (k + 1) s = .next t ∧ t.fsm = .handoff ∧ t.rxResult ≠ .none
        ∧ t.now ≤ s.now + bound + 1)
    ∧ (s.fsm = .rxSample → s.nbits = 0 →
      ∃ k t, run k s = .next t ∧ t.fsm = .handoff ∧ t.rxResult ≠ .none ∧ t.now ≤ s.tBase + bound + 1)
    ∧ (s.fsm = .rxSample ∨ s.fsm = .rxWaitHigh ∨ s.fsm = .rxWaitLow →
      ∃ k t, run k s = .next t ∧ t.fsm = .handoff ∧ t.rxResult ≠ .none ∧ t.now ≤ s.now + bound + 1)

/-- A well-timed console frame is received as it was sent (R103): under R103's conditions, from an idle
armed machine with the line released, the console's waveform of an instruction's frame ends in the
delivery of that instruction's frame, whatever the entry latency drawn. -/
def Obligations.WellTimedFrameIsReceivedAsSent : Prop :=
  ∀ (s : State) (lo hi : Bit → Tick) (stop : Bool) (i : Instr) (rest : List TickInput),
    configProblem s.cfg = none → i.wf = true →
    WellTimed s.cfg lo hi (max s.cfg.entryLatencyMax (s.cfg.pollTicks - 1)) →
    s.fsm = .idle → s.irqEnable = true → s.edgePending = false → s.maskHold = .none →
    s.prevLevel = true → s.devLow = false →
    s.env.inputs = consoleWave lo hi (encode s.cfg.extStop stop i) ++ rest →
    ∃ k t, k ≤ (consoleWave lo hi (encode s.cfg.extStop stop i)).length ∧ run k s = .next t
      ∧ t.fsm = .handoff ∧ t.rxResult = .ok i.frame

/-! ## The exception and the hand-off -/

/-- Taking the timeout (R135) writes `rx_result` and `fsm` and nothing else. -/
def Obligations.TimeoutPostsTheErrorOnly : Prop :=
  ∀ (phase : WaitPhase) (s : State), raiseTimeout phase s = { s with
    rxResult := .err { phase := phase, bits := s.nbits }, fsm := .handoff }

/-- A timeout tells the bits sampled, 1 to 280 (R134, R136): where a step posts one, its `bits` is `nbits`,
no bit was sampled in that tick, and it is less than the frame takes. -/
def Obligations.TimeoutTellsTheBitsSampled : Prop :=
  ∀ (s t : State) (info : TimeoutInfo), Inv s → step s = .next t →
    t.rxResult = .err info → s.rxResult ≠ .err info →
    info.bits = s.nbits ∧ t.nbits = s.nbits ∧ 1 ≤ info.bits ∧ info.bits ≤ 280
    ∧ (∀ n, t.need = some n → info.bits < n)
    ∧ ((info.phase = .waitHigh ∧ s.fsm = .rxWaitHigh) ∨ (info.phase = .waitLow ∧ s.fsm = .rxWaitLow))

/-- A result is posted whole (R58): where a step leaves a result, the machine is in the hand-off, and the
result was there before or it replaces none and comes from a receive; a delivered frame has all its
bits. -/
def Obligations.ResultsArePostedWhole : Prop :=
  ∀ s t : State, Inv s → step s = .next t → t.rxResult ≠ .none →
    t.fsm = .handoff ∧ (t.rxResult = s.rxResult ∨
      (s.rxResult = .none ∧ (s.fsm = .rxSample ∨ s.fsm = .rxWaitHigh ∨ s.fsm = .rxWaitLow)))
    ∧ (∀ f, t.rxResult = .ok f → t.need = some t.nbits)

/-- The hand-off waits (R123): without a request of the dispatcher and without a reset, the machine does
not leave `HANDOFF` and keeps the result. -/
def Obligations.HandoffWaitsForTheDispatcher : Prop :=
  ∀ s : State, configProblem s.cfg = none → s.env.input.reset = false →
    s.env.input.dispatcher = [] → s.fsm = .handoff →
    ∃ t, step s = .next t ∧ t.fsm = .handoff ∧ t.rxResult = s.rxResult ∧ t.devLow = s.devLow

/-- `release` (R124): from the hand-off to `IDLE` with the result cleared; a latched edge of an enabled
trigger is re-based to now (R121); nothing else changes. Elsewhere it is refused. -/
def Obligations.ReleaseReturnsToIdle : Prop :=
  ∀ s : State,
    (s.fsm = .handoff → s.irqEnable = true → s.edgePending = true →
      release s = { s with rxResult := .none, fsm := .idle, tEdgePending := s.now })
    ∧ (s.fsm = .handoff → (s.irqEnable = false ∨ s.edgePending = false) →
      release s = { s with rxResult := .none, fsm := .idle })
    ∧ (s.fsm ≠ .handoff → release s = { s with refused := true })

/-- The refusal mark is never cleared but by a reset (R46). -/
def Obligations.RefusalMarkIsKept : Prop :=
  ∀ s t : State, s.env.input.reset = false → step s = .next t → s.refused = true → t.refused = true

/-! ## The transmit path -/

/-- Frame validation (R106): the request is refused, with the mark set and nothing else changed, unless the
frame has a segment, every width is 1 to 32, every value fits its width, and the widths' sum fits. -/
def Obligations.FrameValidationConditions : Prop :=
  ∀ (f : ProtocolFrame) (s : State),
    (frameValid s.cfg f = true ↔
      1 ≤ f.length ∧ (∀ g ∈ f, 1 ≤ g.width ∧ g.width ≤ 32) ∧ (∀ g ∈ f, g.value < 2 ^ g.width)
        ∧ (f.map Segment.width).sum ≤ s.cfg.maxFrameBits)
    ∧ (¬ (1 ≤ f.length ∧ (∀ g ∈ f, 1 ≤ g.width ∧ g.width ≤ 32) ∧ (∀ g ∈ f, g.value < 2 ^ g.width)
        ∧ (f.map Segment.width).sum ≤ s.cfg.maxFrameBits) →
      transmit f s = { s with refused := true })

/-- An accepted transmit request (R105): the whole frame is converted, the serializer is started with a
drawn start delay, the result is cleared and `TX` entered; nothing else changes but the draw. -/
def Obligations.TransmitTakesTheWholeFrame : Prop :=
  ∀ (f : ProtocolFrame) (g : Frame) (s : State), s.fsm = .handoff → s.rxResult = .ok g →
    frameValid s.cfg f = true →
    ∃ d, d ≤ s.cfg.txStartMax ∧ transmit f s = { s with
      txProg := wireBits f, txPc := .bit 0, txSub := .startWait, tSym := s.now
      tUntil := s.now + d, rxResult := .none, fsm := .tx, env := s.env.draw.2 }

/-- Transmit requests without meaning are refused (R106, R107): the mark is set and nothing else
changes. -/
def Obligations.MeaninglessTransmitsAreRefused : Prop :=
  ∀ (f : ProtocolFrame) (s : State),
    (s.fsm ≠ .handoff ∨ (∃ info, s.rxResult = .err info) ∨ s.rxResult = .none
      ∨ frameValid s.cfg f = false) →
    transmit f s = { s with refused := true }

/-- The wire bits of a frame (R53, R54, R80): one per unit of width, segment after segment, and each
segment most significant bit first. -/
def Obligations.WireBitsFollowTheSegments : Prop :=
  ∀ (f : ProtocolFrame) (g : Segment),
    (wireBits f).length = (f.map Segment.width).sum
    ∧ (∀ i, i < (wireBits f).length → (wireBits (f ++ [g]))[i]? = (wireBits f)[i]?)
    ∧ (∀ i, i < g.width →
        (wireBits (f ++ [g]))[(wireBits f).length + i]? = some (g.value.testBit (g.width - 1 - i)))

/-- A symbol starts with the device pulling the line low (R108, R111): the first one, `j = k`, at the end
of the start delay, and the next one, `j = k + 1`, at the end of a data bit. Its low part lasts `P_T0_LOW`
for a 0 bit, `P_T1_LOW` for a 1 bit (R109, R110), and `P_TSTOP_LOW` for the device stop (R112). -/
def Obligations.SymbolsStartLow : Prop :=
  ∀ (s : State) (k j : Nat), s.fsm = .tx → s.now = s.tUntil → s.txPc = .bit k →
    (s.txSub = .startWait ∧ j = k) ∨ (s.txSub = .high ∧ j = k + 1) →
    ∃ d, txRule s = some { s with
        txPc := .bit j, txSub := .low, tSym := s.now, devLow := true, tUntil := s.now + d }
      ∧ (s.txProg[j]? = some false → d = s.cfg.t0Low)
      ∧ (s.txProg[j]? = some true → d = s.cfg.t1Low)
      ∧ (j = s.txProg.length → d = s.cfg.tStopLow)

/-- A data bit's low part ends (R109, R110): released for the bit's high time. That `t_sym` is now, the
tick at which the HIGH phase began, is R44's (log 12). -/
def Obligations.DataBitsAreReleased : Prop :=
  ∀ (s : State) (k : Nat), s.fsm = .tx → s.now = s.tUntil → s.txPc = .bit k → s.txSub = .low →
    (s.txProg[k]? = some false → txRule s = some { s with
      devLow := false, txSub := .high, tSym := s.now, tUntil := s.now + s.cfg.t0High })
    ∧ (s.txProg[k]? = some true → txRule s = some { s with
      devLow := false, txSub := .high, tSym := s.now, tUntil := s.now + s.cfg.t1High })

/-- The device stop symbol (R112) and completion (R113): after the stop pulse the line is released and a
done delay drawn; at its end the stop marker is reached and `IDLE` entered, where only a pending edge is
re-based (R121). That `t_sym` is now at the start of DONE_WAIT is R44's (log 12). -/
def Obligations.StopSymbolThenCompletion : Prop :=
  ∀ (s : State) (k : Nat), s.fsm = .tx → s.now = s.tUntil → s.txPc = .bit k →
    (s.txSub = .low → k = s.txProg.length → ∃ d, d ≤ s.cfg.txDoneMax ∧ txRule s = some { s with
      devLow := false, txSub := .doneWait, tSym := s.now, tUntil := s.now + d, env := s.env.draw.2 })
    ∧ (s.txSub = .doneWait → s.irqEnable = true → s.edgePending = true →
      txRule s = some { s with txPc := .stop, fsm := .idle, tEdgePending := s.now })
    ∧ (s.txSub = .doneWait → (s.irqEnable = false ∨ s.edgePending = false) →
      txRule s = some { s with txPc := .stop, fsm := .idle })

/-- A whole transmission in closed form (R115): from an accepted request, with no reset, there are a start
delay and a done delay in their ranges for which `dev_low` follows the closed form tick by tick, the
serializer stays off its stop marker until the form's end, and reaches it in the tick after. -/
def Obligations.TransmissionFollowsTheClosedForm : Prop :=
  ∀ (s : State) (f : ProtocolFrame) (g : Frame) (x : TickInput) (rest : List TickInput) (n : Nat),
    configProblem s.cfg = none → Inv s → s.fsm = .handoff → s.rxResult = .ok g →
    frameValid s.cfg f = true → s.env.inputs = x :: rest → x.dispatcher = [.transmit f] →
    n = s.cfg.txStartMax + (deviceWave s.cfg 0 0 (wireBits f)).length + s.cfg.txDoneMax →
    listedNoReset (n + 1) s →
    ∃ ds de, ds ≤ s.cfg.txStartMax ∧ de ≤ s.cfg.txDoneMax
      ∧ (∀ k (h : k < (deviceWave s.cfg ds de (wireBits f)).length),
          ∃ t, run (k + 1) s = .next t ∧ t.devLow = (deviceWave s.cfg ds de (wireBits f))[k]
            ∧ t.txPc ≠ .stop ∧ t.fsm = .tx)
      ∧ ∃ t, run ((deviceWave s.cfg ds de (wireBits f)).length + 1) s = .next t
          ∧ t.devLow = false ∧ t.txPc = .stop ∧ t.fsm ≠ .tx

/-- A transmission goes on whatever the outside does (R116, R117): but for a reset, two different inputs
of a tick of `TX` give the same drive and the same serializer. -/
def Obligations.NothingDisturbsATransmission : Prop :=
  ∀ (s : State) (x y : TickInput) (xs ys : List TickInput), configProblem s.cfg = none →
    s.fsm = .tx → x.reset = false → y.reset = false →
    ∃ t u, step { s with env := { s.env with inputs := x :: xs } } = .next t
      ∧ step { s with env := { s.env with inputs := y :: ys } } = .next u
      ∧ t.devLow = u.devLow ∧ t.txProg = u.txProg ∧ t.txPc = u.txPc ∧ t.txSub = u.txSub
      ∧ t.tSym = u.tSym ∧ t.tUntil = u.tUntil

/-- Every transmission is one accepted request (R119): a step enters `TX` only from the hand-off after
`OK(_)`, with a valid frame that the dispatcher presented in that tick, and its program is that frame's. -/
def Obligations.OnlyARequestTransmits : Prop :=
  ∀ s t : State, step s = .next t → s.fsm ≠ .tx → t.fsm = .tx →
    ∃ f g, DispatcherRequest.transmit f ∈ s.env.input.dispatcher ∧ frameValid s.cfg f = true
      ∧ s.fsm = .handoff ∧ s.rxResult = .ok g ∧ t.txProg = wireBits f

/-- The device drives the line only in the low part of a symbol it transmits (R28, R93): every step keeps
that. -/
def Obligations.DeviceDrivesOnlySymbols : Prop :=
  ∀ s t : State, DriveInv s → step s = .next t → DriveInv t

/-! ## The edge trigger, mask and unmask -/

/-- An armed falling edge (R120): it is latched at its tick with a latency in range, and with a latency of
0 it starts the receive in the same tick. R85 draws the latency once per edge; that it is drawn and kept
when the edge is latched is the model's reading (log 9). -/
def Obligations.ArmedEdgeStartsAReceive : Prop :=
  ∀ s : State, configProblem s.cfg = none → s.env.input.reset = false → s.env.input.flush = [] →
    s.maskHold = .none → s.fsm = .idle → s.irqEnable = true → s.edgePending = false →
    s.prevLevel = true → s.line = false →
    ∃ d t, d ≤ s.cfg.entryLatencyMax ∧ step s = .next t ∧ t.prevLevel = false
      ∧ t.tEdgePending = s.now ∧ t.entryDelay = d
      ∧ (0 < d → t.edgePending = true ∧ t.fsm = .idle)
      ∧ (d = 0 → t.edgePending = false ∧ t.fsm ≠ .idle ∧ t.tBase = s.now)

/-- A falling edge while not armed (R121), and one while another is pending (R120). R85 draws the latency
once per edge; that a stale edge's is drawn and kept when the edge is latched, and not when the trigger is
armed again, is the model's reading (log 9). -/
def Obligations.StaleEdgesAreDiscardedOrLatched : Prop :=
  ∀ s : State, s.fall = true →
    (s.armed = false → s.cfg.staleEdge = .discard → detectEdge s = { s with prevLevel := false })
    ∧ (s.armed = false → s.cfg.staleEdge = .latch → s.edgePending = false →
      ∃ d, d ≤ s.cfg.entryLatencyMax ∧ detectEdge s = { s with
        prevLevel := false, edgePending := true, tEdgePending := s.now, entryDelay := d
        env := s.env.draw.2 })
    ∧ (s.edgePending = true → detectEdge s = { s with prevLevel := false })

/-- `mask` (R126): held outside `IDLE`; in `IDLE` with no edge pending it takes effect; with one pending it
takes effect and, under `Discard`, drops the edge, or is held until no edge is pending; already
disabled, it changes nothing. -/
def Obligations.MaskTakesEffectOrHolds : Prop :=
  ∀ s : State, s.maskHold = .none →
    (s.irqEnable = false → mask s = s)
    ∧ (s.irqEnable = true → s.fsm ≠ .idle → mask s = { s with maskHold := .untilIdle })
    ∧ (s.irqEnable = true → s.fsm = .idle → s.edgePending = false →
      mask s = { s with irqEnable := false })
    ∧ (s.irqEnable = true → s.fsm = .idle → s.edgePending = true →
      mask s = { s with env := s.env.draw.2, maskHold := .untilClear }
      ∨ (s.cfg.staleEdge = .discard ∧
          mask s = { s with env := s.env.draw.2, irqEnable := false, edgePending := false })
      ∨ (s.cfg.staleEdge = .latch ∧ mask s = { s with env := s.env.draw.2, irqEnable := false }))

/-- A held mask (R126 `hold until`), in a tick whose flush sequence presents nothing: while the machine is
not `IDLE` after the dispatcher's requests it stays held and the trigger enabled. In `IDLE` with no edge
pending it takes effect. In `IDLE` with an edge pending, a mask that waits for the pending receive stays
held; one that waited for `IDLE` only comes to the draw: it then waits for the pending receive, or takes
effect, dropping the edge under `Discard` and keeping it under `Latch`. R126 says what is waited for; when
a held mask looks again is the model's choice (log 11): once in each tick, in step 0 of R132 after the
dispatcher's requests, and so not in the tick whose serializer step completes a transmission. -/
def Obligations.HeldMaskWaitsThenTakesEffect : Prop :=
  ∀ s : State, configProblem s.cfg = none → s.env.input.reset = false → s.env.input.flush = [] →
    s.maskHold ≠ .none → s.irqEnable = true →
    ∃ t, step s = .next t
      ∧ ((s.env.input.dispatcher.foldl dispatcherRequest s).fsm ≠ .idle →
          t.maskHold = s.maskHold ∧ t.irqEnable = true)
      ∧ ((s.env.input.dispatcher.foldl dispatcherRequest s).fsm = .idle →
          (s.edgePending = false → t.maskHold = .none ∧ t.irqEnable = false ∧ t.fsm = .idle)
          ∧ (s.edgePending = true → s.maskHold = .untilClear →
              t.maskHold = .untilClear ∧ t.irqEnable = true)
          ∧ (s.edgePending = true → s.maskHold = .untilIdle →
              (t.maskHold = .untilClear ∧ t.irqEnable = true)
              ∨ (t.maskHold = .none ∧ t.irqEnable = false ∧ t.fsm = .idle
                  ∧ (s.cfg.staleEdge = .discard → t.edgePending = false)
                  ∧ (s.cfg.staleEdge = .latch → t.edgePending = true))))

/-- `unmask` (R127): it enables, and re-bases a pending edge; while enabled it changes nothing (log 10). -/
def Obligations.UnmaskEnables : Prop :=
  ∀ s : State,
    (s.irqEnable = false → s.edgePending = true →
      unmask s = { s with irqEnable := true, tEdgePending := s.now })
    ∧ (s.irqEnable = false → s.edgePending = false → unmask s = { s with irqEnable := true })
    ∧ (s.irqEnable = true → unmask s = s)

/-- The line-idle status (R128), with the line as the wired-AND of its drivers (R27). That it is read
before the tick's serializer step, with that tick's console drive, is the model's reading (log 25). -/
def Obligations.LineIdleStatus : Prop :=
  ∀ s : State, s.lineIdle = true ↔
    s.fsm = .idle ∧ s.edgePending = false ∧ s.env.input.consoleLow = false ∧ s.devLow = false

/-- Nothing starts while masked (R129): from an idle masked machine that does not drive, for as long as no
unmask and no reset comes, the machine stays idle, masked and released, and posts nothing, whatever the
console and the dispatcher do. -/
def Obligations.NothingStartsWhileMasked : Prop :=
  ∀ (n : Nat) (s : State), configProblem s.cfg = none → s.fsm = .idle → s.irqEnable = false →
    s.devLow = false → listedNoReset n s →
    (∀ x ∈ s.env.inputs.take n, FlushRequest.unmask ∉ x.flush) →
    ∃ t, run n s = .next t ∧ t.fsm = .idle ∧ t.irqEnable = false ∧ t.devLow = false
      ∧ t.rxResult = s.rxResult ∧ t.nbits = s.nbits ∧ t.txPc = s.txPc

/-- Requests come before the edge detector (R132, R140): a mask and a falling edge in the same tick leave
the edge stale. -/
def Obligations.MaskAndEdgeInOneTickLeaveTheEdgeStale : Prop :=
  ∀ s : State, configProblem s.cfg = none → s.env.input.reset = false → s.env.input.flush = [.mask] →
    s.maskHold = .none → s.fsm = .idle → s.irqEnable = true → s.edgePending = false →
    s.prevLevel = true → s.line = false →
    ∃ t, step s = .next t ∧ t.irqEnable = false ∧ t.fsm = .idle ∧ t.prevLevel = false
      ∧ (s.cfg.staleEdge = .discard → t.edgePending = false)
      ∧ (s.cfg.staleEdge = .latch → t.edgePending = true ∧ t.tEdgePending = s.now)

/-- The serializer comes before the edge detector (R132, R140): a transmit's first pulse is seen by the
edge detector in the same tick, where it is a stale edge (R121). -/
def Obligations.FirstPulseIsSeenByTheEdgeDetector : Prop :=
  ∀ (s : State) (f : ProtocolFrame) (g : Frame), configProblem s.cfg = none →
    s.env.input.reset = false → s.env.input.dispatcher = [.transmit f] → s.env.input.flush = [] →
    s.fsm = .handoff → s.rxResult = .ok g → frameValid s.cfg f = true → s.cfg.txStartMax = 0 →
    s.prevLevel = true → s.edgePending = false →
    ∃ t, step s = .next t ∧ t.devLow = true ∧ t.prevLevel = false ∧ t.fsm = .tx
      ∧ (s.cfg.staleEdge = .latch → t.edgePending = true ∧ t.tEdgePending = s.now)
      ∧ (s.cfg.staleEdge = .discard → t.edgePending = false)

/-! ## Reset, time and the whole machine -/

/-- The reset state (R150), for every configuration and every value of what the spec draws or leaves
unspecified. -/
def Obligations.ResetValues : Prop :=
  ∀ (cfg : Config) (level : Bit) (data : Block) (s : State), s = State.resetWith cfg level data →
    s.devLow = false ∧ s.prevLevel = level ∧ s.irqEnable = false ∧ s.edgePending = false
    ∧ s.tEdgePending = 0 ∧ s.fsm = .idle ∧ s.tBase = 0 ∧ s.nbits = 0 ∧ s.need = none ∧ s.hdr = 0#24
    ∧ s.rxOp = 0#8 ∧ s.waitN = 0 ∧ s.tPhase = 0 ∧ s.rxResult = .none ∧ s.txProg = []
    ∧ s.txPc = .stop ∧ s.txSub = .doneWait ∧ s.tSym = 0 ∧ s.tUntil = 0 ∧ s.now = 0
    ∧ s.refused = false

/-- A reset input, in any state, abandons what is in progress (R151): every field of R150's table is at
its reset value, tick 0 comes next, and the parameters are kept. `prev_level` is drawn: where a choice is
listed, an odd one is level 1 (log 5). `data` is left open (log 7). That the reset takes the place of the
whole tick is the model's choice (log 20). -/
def Obligations.ResetAbandonsTheTransaction : Prop :=
  ∀ s : State, configProblem s.cfg = none → s.env.input.reset = true →
    ∃ t, step s = .next t ∧ t.cfg = s.cfg
      ∧ t.devLow = false ∧ (∀ d ds, s.env.draws = d :: ds → t.prevLevel = decide (d % 2 = 1))
      ∧ t.irqEnable = false ∧ t.edgePending = false ∧ t.tEdgePending = 0 ∧ t.fsm = .idle ∧ t.tBase = 0
      ∧ t.nbits = 0 ∧ t.need = none ∧ t.hdr = 0#24 ∧ t.rxOp = 0#8 ∧ t.waitN = 0 ∧ t.tPhase = 0
      ∧ t.rxResult = .none ∧ t.txProg = [] ∧ t.txPc = .stop ∧ t.txSub = .doneWait ∧ t.tSym = 0
      ∧ t.tUntil = 0 ∧ t.now = 0 ∧ t.refused = false

/-- The reset state meets the invariant, for every configuration. -/
def Obligations.ResetMeetsTheInvariant : Prop :=
  ∀ (cfg : Config) (level : Bit) (data : Block), Inv (State.resetWith cfg level data)

/-- Every step keeps the invariant, from every state that meets it. -/
def Obligations.EveryStepKeepsTheInvariant : Prop :=
  ∀ s t : State, Inv s → step s = .next t → Inv t

/-- Step 4 of R132 repeats until no receive rule holds. -/
def Obligations.ReceiveRulesAreExhausted : Prop :=
  ∀ s t : State, configProblem s.cfg = none → receive s = .next t → rxRule t = none

/-- The machine goes on from every state with an accepted configuration (R138: the transceiver raises no
error that stops it), and without a reset time advances by one tick (R132 step 5) while the parameters
stay (R25). -/
def Obligations.EveryStepGoesOn : Prop :=
  ∀ s : State, configProblem s.cfg = none →
    ∃ t, step s = .next t ∧ t.cfg = s.cfg ∧ (s.env.input.reset = false → t.now = s.now + 1)

/-- The configurations the model refuses (R144): a step is refused for the tick counter exactly when every
parameter is in its range and some measured interval is not below `2^P_TICK_WIDTH`. -/
def Obligations.NarrowCountersAreRefused : Prop :=
  ∀ s : State, step s = .refused .counterTooNarrow ↔
    parametersInRange s.cfg = true ∧
      (2 ^ s.cfg.tickWidth ≤ s.cfg.sampleDelay ∨ 2 ^ s.cfg.tickWidth ≤ s.cfg.pollTicks
      ∨ 2 ^ s.cfg.tickWidth ≤ s.cfg.t0Low ∨ 2 ^ s.cfg.tickWidth ≤ s.cfg.t0High
      ∨ 2 ^ s.cfg.tickWidth ≤ s.cfg.t1Low ∨ 2 ^ s.cfg.tickWidth ≤ s.cfg.t1High
      ∨ 2 ^ s.cfg.tickWidth ≤ s.cfg.tStopLow ∨ 2 ^ s.cfg.tickWidth ≤ s.cfg.entryLatencyMax
      ∨ 2 ^ s.cfg.tickWidth ≤ s.cfg.txStartMax ∨ 2 ^ s.cfg.tickWidth ≤ s.cfg.txDoneMax)

/-- Reading a hardware counter (R144): an elapsed time is exact when the true interval is below
`2^P_TICK_WIDTH`. -/
def Obligations.ElapsedTimeIsExact : Prop :=
  ∀ (cfg : Config) (t0 t1 : Tick), t0 ≤ t1 → t1 - t0 < 2 ^ cfg.tickWidth →
    counterElapsed cfg (counterRead cfg t0) (counterRead cfg t1) = t1 - t0
end

