-- ==== Sys2Proof/Laws/Decode.lean ====
section
/-! SUPPORT. Laws/Decode.lean: bit lists: their lengths, and that reading them back MSB first gives the
value. -/

namespace Sys2Proof

@[simp] theorem msbBits_length (v w : Nat) : (msbBits v w).length = w := by
  induction w with
  | zero => rfl
  | succ w ih => simp [msbBits, ih]

/-- Reading starts from any value: earlier bits weigh more. -/
theorem foldl_msb (bits : List Bit) (a : Nat) :
    bits.foldl (fun v b => 2 * v + b.toNat) a = a * 2 ^ bits.length + fromMsb bits := by
  induction bits generalizing a with
  | nil => simp [fromMsb]
  | cons b bs ih =>
    simp only [fromMsb, List.foldl_cons, List.length_cons]
    rw [ih, ih (2 * 0 + b.toNat)]
    simp only [Nat.pow_succ]
    ring

theorem fromMsb_append (xs ys : List Bit) :
    fromMsb (xs ++ ys) = fromMsb xs * 2 ^ ys.length + fromMsb ys := by
  conv_lhs => rw [fromMsb, List.foldl_append]
  exact foldl_msb ys (fromMsb xs)

theorem fromMsb_cons (b : Bit) (bs : List Bit) :
    fromMsb (b :: bs) = b.toNat * 2 ^ bs.length + fromMsb bs := by
  have h := fromMsb_append [b] bs
  simpa [fromMsb] using h

/-- `from_msb` undoes `msb_bits`, up to the width (R22). -/
@[simp] theorem fromMsb_msbBits (v w : Nat) : fromMsb (msbBits v w) = v % 2 ^ w := by
  induction w with
  | zero => simp [msbBits, fromMsb, Nat.mod_one]
  | succ w ih =>
    rw [msbBits, fromMsb_cons, ih, msbBits_length, Nat.mod_pow_succ, Nat.toNat_testBit]
    ring

/-- A block is 256 bits on the wire (R14). -/
@[simp] theorem blockBits_length (d : Block) : (blockBits d).length = 256 := by
  simp [blockBits, List.length_flatMap, msbBits_length]

/-- A field that stands at the front reads back. -/
theorem bitField_msbBits (w : Nat) (v : BitVec w) (rest : List Bit) :
    bitField (msbBits v.toNat w ++ rest) 0 w = v := by
  apply BitVec.eq_of_toNat_eq
  simp [bitField, List.take_left' (msbBits_length v.toNat w)]

/-- Bits in front of a field move its place. -/
theorem bitField_append (xs ys : List Bit) (k w : Nat) :
    bitField (xs ++ ys) (xs.length + k) w = bitField ys k w := by
  rw [bitField, bitField, ← List.drop_drop, List.drop_left]

end Sys2Proof
end

