-- ==== Sys2Proof/Laws/State.lean ====
section
/-! SUPPORT. Laws/State.lean: one lemma per field for each operation that is a plain update of the state. -/

namespace Sys2Proof.Machine

/-! ## advanceTime -/

@[simp] theorem advanceTime_cfg (s : State) : (advanceTime s).cfg = s.cfg := rfl
@[simp] theorem advanceTime_devLow (s : State) : (advanceTime s).devLow = s.devLow := rfl
@[simp] theorem advanceTime_prevLevel (s : State) : (advanceTime s).prevLevel = s.prevLevel := rfl
@[simp] theorem advanceTime_irqEnable (s : State) : (advanceTime s).irqEnable = s.irqEnable := rfl
@[simp] theorem advanceTime_edgePending (s : State) : (advanceTime s).edgePending = s.edgePending := rfl
@[simp] theorem advanceTime_tEdgePending (s : State) : (advanceTime s).tEdgePending = s.tEdgePending := rfl
@[simp] theorem advanceTime_entryDelay (s : State) : (advanceTime s).entryDelay = s.entryDelay := rfl
@[simp] theorem advanceTime_fsm (s : State) : (advanceTime s).fsm = s.fsm := rfl
@[simp] theorem advanceTime_tBase (s : State) : (advanceTime s).tBase = s.tBase := rfl
@[simp] theorem advanceTime_nbits (s : State) : (advanceTime s).nbits = s.nbits := rfl
@[simp] theorem advanceTime_need (s : State) : (advanceTime s).need = s.need := rfl
@[simp] theorem advanceTime_hdr (s : State) : (advanceTime s).hdr = s.hdr := rfl
@[simp] theorem advanceTime_rxOp (s : State) : (advanceTime s).rxOp = s.rxOp := rfl
@[simp] theorem advanceTime_data (s : State) : (advanceTime s).data = s.data := rfl
@[simp] theorem advanceTime_waitN (s : State) : (advanceTime s).waitN = s.waitN := rfl
@[simp] theorem advanceTime_tPhase (s : State) : (advanceTime s).tPhase = s.tPhase := rfl
@[simp] theorem advanceTime_rxResult (s : State) : (advanceTime s).rxResult = s.rxResult := rfl
@[simp] theorem advanceTime_txProg (s : State) : (advanceTime s).txProg = s.txProg := rfl
@[simp] theorem advanceTime_txPc (s : State) : (advanceTime s).txPc = s.txPc := rfl
@[simp] theorem advanceTime_txSub (s : State) : (advanceTime s).txSub = s.txSub := rfl
@[simp] theorem advanceTime_tSym (s : State) : (advanceTime s).tSym = s.tSym := rfl
@[simp] theorem advanceTime_tUntil (s : State) : (advanceTime s).tUntil = s.tUntil := rfl
@[simp] theorem advanceTime_now (s : State) : (advanceTime s).now = s.now + 1 := rfl
@[simp] theorem advanceTime_refused (s : State) : (advanceTime s).refused = s.refused := rfl
@[simp] theorem advanceTime_maskHold (s : State) : (advanceTime s).maskHold = s.maskHold := rfl
@[simp] theorem advanceTime_env (s : State) : (advanceTime s).env = s.env.advance := rfl

/-! ## latchEdge -/

@[simp] theorem latchEdge_cfg (s : State) : (latchEdge s).cfg = s.cfg := rfl
@[simp] theorem latchEdge_devLow (s : State) : (latchEdge s).devLow = s.devLow := rfl
@[simp] theorem latchEdge_prevLevel (s : State) : (latchEdge s).prevLevel = s.prevLevel := rfl
@[simp] theorem latchEdge_irqEnable (s : State) : (latchEdge s).irqEnable = s.irqEnable := rfl
@[simp] theorem latchEdge_edgePending (s : State) : (latchEdge s).edgePending = true := rfl
@[simp] theorem latchEdge_tEdgePending (s : State) : (latchEdge s).tEdgePending = s.now := rfl
@[simp] theorem latchEdge_entryDelay (s : State) : (latchEdge s).entryDelay = chooseUpTo s.cfg.entryLatencyMax s.env.draw.1 := rfl
@[simp] theorem latchEdge_fsm (s : State) : (latchEdge s).fsm = s.fsm := rfl
@[simp] theorem latchEdge_tBase (s : State) : (latchEdge s).tBase = s.tBase := rfl
@[simp] theorem latchEdge_nbits (s : State) : (latchEdge s).nbits = s.nbits := rfl
@[simp] theorem latchEdge_need (s : State) : (latchEdge s).need = s.need := rfl
@[simp] theorem latchEdge_hdr (s : State) : (latchEdge s).hdr = s.hdr := rfl
@[simp] theorem latchEdge_rxOp (s : State) : (latchEdge s).rxOp = s.rxOp := rfl
@[simp] theorem latchEdge_data (s : State) : (latchEdge s).data = s.data := rfl
@[simp] theorem latchEdge_waitN (s : State) : (latchEdge s).waitN = s.waitN := rfl
@[simp] theorem latchEdge_tPhase (s : State) : (latchEdge s).tPhase = s.tPhase := rfl
@[simp] theorem latchEdge_rxResult (s : State) : (latchEdge s).rxResult = s.rxResult := rfl
@[simp] theorem latchEdge_txProg (s : State) : (latchEdge s).txProg = s.txProg := rfl
@[simp] theorem latchEdge_txPc (s : State) : (latchEdge s).txPc = s.txPc := rfl
@[simp] theorem latchEdge_txSub (s : State) : (latchEdge s).txSub = s.txSub := rfl
@[simp] theorem latchEdge_tSym (s : State) : (latchEdge s).tSym = s.tSym := rfl
@[simp] theorem latchEdge_tUntil (s : State) : (latchEdge s).tUntil = s.tUntil := rfl
@[simp] theorem latchEdge_now (s : State) : (latchEdge s).now = s.now := rfl
@[simp] theorem latchEdge_refused (s : State) : (latchEdge s).refused = s.refused := rfl
@[simp] theorem latchEdge_maskHold (s : State) : (latchEdge s).maskHold = s.maskHold := rfl
@[simp] theorem latchEdge_env (s : State) : (latchEdge s).env = s.env.draw.2 := rfl

/-! ## decideLength -/

@[simp] theorem decideLength_cfg (op : Byte) (s : State) : (decideLength op s).cfg = s.cfg := rfl
@[simp] theorem decideLength_devLow (op : Byte) (s : State) : (decideLength op s).devLow = s.devLow := rfl
@[simp] theorem decideLength_prevLevel (op : Byte) (s : State) : (decideLength op s).prevLevel = s.prevLevel := rfl
@[simp] theorem decideLength_irqEnable (op : Byte) (s : State) : (decideLength op s).irqEnable = s.irqEnable := rfl
@[simp] theorem decideLength_edgePending (op : Byte) (s : State) : (decideLength op s).edgePending = s.edgePending := rfl
@[simp] theorem decideLength_tEdgePending (op : Byte) (s : State) : (decideLength op s).tEdgePending = s.tEdgePending := rfl
@[simp] theorem decideLength_entryDelay (op : Byte) (s : State) : (decideLength op s).entryDelay = s.entryDelay := rfl
@[simp] theorem decideLength_fsm (op : Byte) (s : State) : (decideLength op s).fsm = s.fsm := rfl
@[simp] theorem decideLength_tBase (op : Byte) (s : State) : (decideLength op s).tBase = s.tBase := rfl
@[simp] theorem decideLength_nbits (op : Byte) (s : State) : (decideLength op s).nbits = s.nbits := rfl
@[simp] theorem decideLength_need (op : Byte) (s : State) : (decideLength op s).need = some (frameNeed s.cfg.extStop op) := rfl
@[simp] theorem decideLength_hdr (op : Byte) (s : State) : (decideLength op s).hdr = s.hdr := rfl
@[simp] theorem decideLength_rxOp (op : Byte) (s : State) : (decideLength op s).rxOp = op := rfl
@[simp] theorem decideLength_data (op : Byte) (s : State) : (decideLength op s).data = s.data := rfl
@[simp] theorem decideLength_waitN (op : Byte) (s : State) : (decideLength op s).waitN = s.waitN := rfl
@[simp] theorem decideLength_tPhase (op : Byte) (s : State) : (decideLength op s).tPhase = s.tPhase := rfl
@[simp] theorem decideLength_rxResult (op : Byte) (s : State) : (decideLength op s).rxResult = s.rxResult := rfl
@[simp] theorem decideLength_txProg (op : Byte) (s : State) : (decideLength op s).txProg = s.txProg := rfl
@[simp] theorem decideLength_txPc (op : Byte) (s : State) : (decideLength op s).txPc = s.txPc := rfl
@[simp] theorem decideLength_txSub (op : Byte) (s : State) : (decideLength op s).txSub = s.txSub := rfl
@[simp] theorem decideLength_tSym (op : Byte) (s : State) : (decideLength op s).tSym = s.tSym := rfl
@[simp] theorem decideLength_tUntil (op : Byte) (s : State) : (decideLength op s).tUntil = s.tUntil := rfl
@[simp] theorem decideLength_now (op : Byte) (s : State) : (decideLength op s).now = s.now := rfl
@[simp] theorem decideLength_refused (op : Byte) (s : State) : (decideLength op s).refused = s.refused := rfl
@[simp] theorem decideLength_maskHold (op : Byte) (s : State) : (decideLength op s).maskHold = s.maskHold := rfl
@[simp] theorem decideLength_env (op : Byte) (s : State) : (decideLength op s).env = s.env := rfl

/-! ## deliver -/

@[simp] theorem deliver_cfg (f : Frame) (s : State) : (deliver f s).cfg = s.cfg := rfl
@[simp] theorem deliver_devLow (f : Frame) (s : State) : (deliver f s).devLow = s.devLow := rfl
@[simp] theorem deliver_prevLevel (f : Frame) (s : State) : (deliver f s).prevLevel = s.prevLevel := rfl
@[simp] theorem deliver_irqEnable (f : Frame) (s : State) : (deliver f s).irqEnable = s.irqEnable := rfl
@[simp] theorem deliver_edgePending (f : Frame) (s : State) : (deliver f s).edgePending = s.edgePending := rfl
@[simp] theorem deliver_tEdgePending (f : Frame) (s : State) : (deliver f s).tEdgePending = s.tEdgePending := rfl
@[simp] theorem deliver_entryDelay (f : Frame) (s : State) : (deliver f s).entryDelay = s.entryDelay := rfl
@[simp] theorem deliver_fsm (f : Frame) (s : State) : (deliver f s).fsm = .handoff := rfl
@[simp] theorem deliver_tBase (f : Frame) (s : State) : (deliver f s).tBase = s.tBase := rfl
@[simp] theorem deliver_nbits (f : Frame) (s : State) : (deliver f s).nbits = s.nbits := rfl
@[simp] theorem deliver_need (f : Frame) (s : State) : (deliver f s).need = s.need := rfl
@[simp] theorem deliver_hdr (f : Frame) (s : State) : (deliver f s).hdr = s.hdr := rfl
@[simp] theorem deliver_rxOp (f : Frame) (s : State) : (deliver f s).rxOp = s.rxOp := rfl
@[simp] theorem deliver_data (f : Frame) (s : State) : (deliver f s).data = s.data := rfl
@[simp] theorem deliver_waitN (f : Frame) (s : State) : (deliver f s).waitN = s.waitN := rfl
@[simp] theorem deliver_tPhase (f : Frame) (s : State) : (deliver f s).tPhase = s.tPhase := rfl
@[simp] theorem deliver_rxResult (f : Frame) (s : State) : (deliver f s).rxResult = .ok f := rfl
@[simp] theorem deliver_txProg (f : Frame) (s : State) : (deliver f s).txProg = s.txProg := rfl
@[simp] theorem deliver_txPc (f : Frame) (s : State) : (deliver f s).txPc = s.txPc := rfl
@[simp] theorem deliver_txSub (f : Frame) (s : State) : (deliver f s).txSub = s.txSub := rfl
@[simp] theorem deliver_tSym (f : Frame) (s : State) : (deliver f s).tSym = s.tSym := rfl
@[simp] theorem deliver_tUntil (f : Frame) (s : State) : (deliver f s).tUntil = s.tUntil := rfl
@[simp] theorem deliver_now (f : Frame) (s : State) : (deliver f s).now = s.now := rfl
@[simp] theorem deliver_refused (f : Frame) (s : State) : (deliver f s).refused = s.refused := rfl
@[simp] theorem deliver_maskHold (f : Frame) (s : State) : (deliver f s).maskHold = s.maskHold := rfl
@[simp] theorem deliver_env (f : Frame) (s : State) : (deliver f s).env = s.env := rfl

/-! ## completeCommand -/

@[simp] theorem completeCommand_cfg (op : Byte) (f : Frame) (s : State) : (completeCommand op f s).cfg = s.cfg := rfl
@[simp] theorem completeCommand_devLow (op : Byte) (f : Frame) (s : State) : (completeCommand op f s).devLow = s.devLow := rfl
@[simp] theorem completeCommand_prevLevel (op : Byte) (f : Frame) (s : State) : (completeCommand op f s).prevLevel = s.prevLevel := rfl
@[simp] theorem completeCommand_irqEnable (op : Byte) (f : Frame) (s : State) : (completeCommand op f s).irqEnable = s.irqEnable := rfl
@[simp] theorem completeCommand_edgePending (op : Byte) (f : Frame) (s : State) : (completeCommand op f s).edgePending = s.edgePending := rfl
@[simp] theorem completeCommand_tEdgePending (op : Byte) (f : Frame) (s : State) : (completeCommand op f s).tEdgePending = s.tEdgePending := rfl
@[simp] theorem completeCommand_entryDelay (op : Byte) (f : Frame) (s : State) : (completeCommand op f s).entryDelay = s.entryDelay := rfl
@[simp] theorem completeCommand_fsm (op : Byte) (f : Frame) (s : State) : (completeCommand op f s).fsm = .handoff := rfl
@[simp] theorem completeCommand_tBase (op : Byte) (f : Frame) (s : State) : (completeCommand op f s).tBase = s.tBase := rfl
@[simp] theorem completeCommand_nbits (op : Byte) (f : Frame) (s : State) : (completeCommand op f s).nbits = s.nbits := rfl
@[simp] theorem completeCommand_need (op : Byte) (f : Frame) (s : State) : (completeCommand op f s).need = some (frameNeed s.cfg.extStop op) := rfl
@[simp] theorem completeCommand_hdr (op : Byte) (f : Frame) (s : State) : (completeCommand op f s).hdr = s.hdr := rfl
@[simp] theorem completeCommand_rxOp (op : Byte) (f : Frame) (s : State) : (completeCommand op f s).rxOp = op := rfl
@[simp] theorem completeCommand_data (op : Byte) (f : Frame) (s : State) : (completeCommand op f s).data = s.data := rfl
@[simp] theorem completeCommand_waitN (op : Byte) (f : Frame) (s : State) : (completeCommand op f s).waitN = s.waitN := rfl
@[simp] theorem completeCommand_tPhase (op : Byte) (f : Frame) (s : State) : (completeCommand op f s).tPhase = s.tPhase := rfl
@[simp] theorem completeCommand_rxResult (op : Byte) (f : Frame) (s : State) : (completeCommand op f s).rxResult = .ok f := rfl
@[simp] theorem completeCommand_txProg (op : Byte) (f : Frame) (s : State) : (completeCommand op f s).txProg = s.txProg := rfl
@[simp] theorem completeCommand_txPc (op : Byte) (f : Frame) (s : State) : (completeCommand op f s).txPc = s.txPc := rfl
@[simp] theorem completeCommand_txSub (op : Byte) (f : Frame) (s : State) : (completeCommand op f s).txSub = s.txSub := rfl
@[simp] theorem completeCommand_tSym (op : Byte) (f : Frame) (s : State) : (completeCommand op f s).tSym = s.tSym := rfl
@[simp] theorem completeCommand_tUntil (op : Byte) (f : Frame) (s : State) : (completeCommand op f s).tUntil = s.tUntil := rfl
@[simp] theorem completeCommand_now (op : Byte) (f : Frame) (s : State) : (completeCommand op f s).now = s.now := rfl
@[simp] theorem completeCommand_refused (op : Byte) (f : Frame) (s : State) : (completeCommand op f s).refused = s.refused := rfl
@[simp] theorem completeCommand_maskHold (op : Byte) (f : Frame) (s : State) : (completeCommand op f s).maskHold = s.maskHold := rfl
@[simp] theorem completeCommand_env (op : Byte) (f : Frame) (s : State) : (completeCommand op f s).env = s.env := rfl

/-! ## raiseTimeout -/

@[simp] theorem raiseTimeout_cfg (phase : WaitPhase) (s : State) : (raiseTimeout phase s).cfg = s.cfg := rfl
@[simp] theorem raiseTimeout_devLow (phase : WaitPhase) (s : State) : (raiseTimeout phase s).devLow = s.devLow := rfl
@[simp] theorem raiseTimeout_prevLevel (phase : WaitPhase) (s : State) : (raiseTimeout phase s).prevLevel = s.prevLevel := rfl
@[simp] theorem raiseTimeout_irqEnable (phase : WaitPhase) (s : State) : (raiseTimeout phase s).irqEnable = s.irqEnable := rfl
@[simp] theorem raiseTimeout_edgePending (phase : WaitPhase) (s : State) : (raiseTimeout phase s).edgePending = s.edgePending := rfl
@[simp] theorem raiseTimeout_tEdgePending (phase : WaitPhase) (s : State) : (raiseTimeout phase s).tEdgePending = s.tEdgePending := rfl
@[simp] theorem raiseTimeout_entryDelay (phase : WaitPhase) (s : State) : (raiseTimeout phase s).entryDelay = s.entryDelay := rfl
@[simp] theorem raiseTimeout_fsm (phase : WaitPhase) (s : State) : (raiseTimeout phase s).fsm = .handoff := rfl
@[simp] theorem raiseTimeout_tBase (phase : WaitPhase) (s : State) : (raiseTimeout phase s).tBase = s.tBase := rfl
@[simp] theorem raiseTimeout_nbits (phase : WaitPhase) (s : State) : (raiseTimeout phase s).nbits = s.nbits := rfl
@[simp] theorem raiseTimeout_need (phase : WaitPhase) (s : State) : (raiseTimeout phase s).need = s.need := rfl
@[simp] theorem raiseTimeout_hdr (phase : WaitPhase) (s : State) : (raiseTimeout phase s).hdr = s.hdr := rfl
@[simp] theorem raiseTimeout_rxOp (phase : WaitPhase) (s : State) : (raiseTimeout phase s).rxOp = s.rxOp := rfl
@[simp] theorem raiseTimeout_data (phase : WaitPhase) (s : State) : (raiseTimeout phase s).data = s.data := rfl
@[simp] theorem raiseTimeout_waitN (phase : WaitPhase) (s : State) : (raiseTimeout phase s).waitN = s.waitN := rfl
@[simp] theorem raiseTimeout_tPhase (phase : WaitPhase) (s : State) : (raiseTimeout phase s).tPhase = s.tPhase := rfl
@[simp] theorem raiseTimeout_rxResult (phase : WaitPhase) (s : State) : (raiseTimeout phase s).rxResult = .err { phase := phase, bits := s.nbits } := rfl
@[simp] theorem raiseTimeout_txProg (phase : WaitPhase) (s : State) : (raiseTimeout phase s).txProg = s.txProg := rfl
@[simp] theorem raiseTimeout_txPc (phase : WaitPhase) (s : State) : (raiseTimeout phase s).txPc = s.txPc := rfl
@[simp] theorem raiseTimeout_txSub (phase : WaitPhase) (s : State) : (raiseTimeout phase s).txSub = s.txSub := rfl
@[simp] theorem raiseTimeout_tSym (phase : WaitPhase) (s : State) : (raiseTimeout phase s).tSym = s.tSym := rfl
@[simp] theorem raiseTimeout_tUntil (phase : WaitPhase) (s : State) : (raiseTimeout phase s).tUntil = s.tUntil := rfl
@[simp] theorem raiseTimeout_now (phase : WaitPhase) (s : State) : (raiseTimeout phase s).now = s.now := rfl
@[simp] theorem raiseTimeout_refused (phase : WaitPhase) (s : State) : (raiseTimeout phase s).refused = s.refused := rfl
@[simp] theorem raiseTimeout_maskHold (phase : WaitPhase) (s : State) : (raiseTimeout phase s).maskHold = s.maskHold := rfl
@[simp] theorem raiseTimeout_env (phase : WaitPhase) (s : State) : (raiseTimeout phase s).env = s.env := rfl

/-! ## refuseRequest -/

@[simp] theorem refuseRequest_cfg (s : State) : (refuseRequest s).cfg = s.cfg := rfl
@[simp] theorem refuseRequest_devLow (s : State) : (refuseRequest s).devLow = s.devLow := rfl
@[simp] theorem refuseRequest_prevLevel (s : State) : (refuseRequest s).prevLevel = s.prevLevel := rfl
@[simp] theorem refuseRequest_irqEnable (s : State) : (refuseRequest s).irqEnable = s.irqEnable := rfl
@[simp] theorem refuseRequest_edgePending (s : State) : (refuseRequest s).edgePending = s.edgePending := rfl
@[simp] theorem refuseRequest_tEdgePending (s : State) : (refuseRequest s).tEdgePending = s.tEdgePending := rfl
@[simp] theorem refuseRequest_entryDelay (s : State) : (refuseRequest s).entryDelay = s.entryDelay := rfl
@[simp] theorem refuseRequest_fsm (s : State) : (refuseRequest s).fsm = s.fsm := rfl
@[simp] theorem refuseRequest_tBase (s : State) : (refuseRequest s).tBase = s.tBase := rfl
@[simp] theorem refuseRequest_nbits (s : State) : (refuseRequest s).nbits = s.nbits := rfl
@[simp] theorem refuseRequest_need (s : State) : (refuseRequest s).need = s.need := rfl
@[simp] theorem refuseRequest_hdr (s : State) : (refuseRequest s).hdr = s.hdr := rfl
@[simp] theorem refuseRequest_rxOp (s : State) : (refuseRequest s).rxOp = s.rxOp := rfl
@[simp] theorem refuseRequest_data (s : State) : (refuseRequest s).data = s.data := rfl
@[simp] theorem refuseRequest_waitN (s : State) : (refuseRequest s).waitN = s.waitN := rfl
@[simp] theorem refuseRequest_tPhase (s : State) : (refuseRequest s).tPhase = s.tPhase := rfl
@[simp] theorem refuseRequest_rxResult (s : State) : (refuseRequest s).rxResult = s.rxResult := rfl
@[simp] theorem refuseRequest_txProg (s : State) : (refuseRequest s).txProg = s.txProg := rfl
@[simp] theorem refuseRequest_txPc (s : State) : (refuseRequest s).txPc = s.txPc := rfl
@[simp] theorem refuseRequest_txSub (s : State) : (refuseRequest s).txSub = s.txSub := rfl
@[simp] theorem refuseRequest_tSym (s : State) : (refuseRequest s).tSym = s.tSym := rfl
@[simp] theorem refuseRequest_tUntil (s : State) : (refuseRequest s).tUntil = s.tUntil := rfl
@[simp] theorem refuseRequest_now (s : State) : (refuseRequest s).now = s.now := rfl
@[simp] theorem refuseRequest_refused (s : State) : (refuseRequest s).refused = true := rfl
@[simp] theorem refuseRequest_maskHold (s : State) : (refuseRequest s).maskHold = s.maskHold := rfl
@[simp] theorem refuseRequest_env (s : State) : (refuseRequest s).env = s.env := rfl

/-! ## rxStart -/

@[simp] theorem rxStart_cfg (s : State) : (rxStart s).cfg = s.cfg := rfl
@[simp] theorem rxStart_devLow (s : State) : (rxStart s).devLow = s.devLow := rfl
@[simp] theorem rxStart_prevLevel (s : State) : (rxStart s).prevLevel = s.prevLevel := rfl
@[simp] theorem rxStart_irqEnable (s : State) : (rxStart s).irqEnable = s.irqEnable := rfl
@[simp] theorem rxStart_edgePending (s : State) : (rxStart s).edgePending = false := rfl
@[simp] theorem rxStart_tEdgePending (s : State) : (rxStart s).tEdgePending = s.tEdgePending := rfl
@[simp] theorem rxStart_entryDelay (s : State) : (rxStart s).entryDelay = s.entryDelay := rfl
@[simp] theorem rxStart_fsm (s : State) : (rxStart s).fsm = .rxSample := rfl
@[simp] theorem rxStart_tBase (s : State) : (rxStart s).tBase = s.now := rfl
@[simp] theorem rxStart_nbits (s : State) : (rxStart s).nbits = 0 := rfl
@[simp] theorem rxStart_need (s : State) : (rxStart s).need = none := rfl
@[simp] theorem rxStart_hdr (s : State) : (rxStart s).hdr = 0#24 := rfl
@[simp] theorem rxStart_rxOp (s : State) : (rxStart s).rxOp = 0#8 := rfl
@[simp] theorem rxStart_data (s : State) : (rxStart s).data = s.data := rfl
@[simp] theorem rxStart_waitN (s : State) : (rxStart s).waitN = s.waitN := rfl
@[simp] theorem rxStart_tPhase (s : State) : (rxStart s).tPhase = s.tPhase := rfl
@[simp] theorem rxStart_rxResult (s : State) : (rxStart s).rxResult = .none := rfl
@[simp] theorem rxStart_txProg (s : State) : (rxStart s).txProg = s.txProg := rfl
@[simp] theorem rxStart_txPc (s : State) : (rxStart s).txPc = s.txPc := rfl
@[simp] theorem rxStart_txSub (s : State) : (rxStart s).txSub = s.txSub := rfl
@[simp] theorem rxStart_tSym (s : State) : (rxStart s).tSym = s.tSym := rfl
@[simp] theorem rxStart_tUntil (s : State) : (rxStart s).tUntil = s.tUntil := rfl
@[simp] theorem rxStart_now (s : State) : (rxStart s).now = s.now := rfl
@[simp] theorem rxStart_refused (s : State) : (rxStart s).refused = s.refused := rfl
@[simp] theorem rxStart_maskHold (s : State) : (rxStart s).maskHold = s.maskHold := rfl
@[simp] theorem rxStart_env (s : State) : (rxStart s).env = s.env := rfl

/-! ## enterWaitHigh -/

@[simp] theorem enterWaitHigh_cfg (s : State) : (enterWaitHigh s).cfg = s.cfg := rfl
@[simp] theorem enterWaitHigh_devLow (s : State) : (enterWaitHigh s).devLow = s.devLow := rfl
@[simp] theorem enterWaitHigh_prevLevel (s : State) : (enterWaitHigh s).prevLevel = s.prevLevel := rfl
@[simp] theorem enterWaitHigh_irqEnable (s : State) : (enterWaitHigh s).irqEnable = s.irqEnable := rfl
@[simp] theorem enterWaitHigh_edgePending (s : State) : (enterWaitHigh s).edgePending = s.edgePending := rfl
@[simp] theorem enterWaitHigh_tEdgePending (s : State) : (enterWaitHigh s).tEdgePending = s.tEdgePending := rfl
@[simp] theorem enterWaitHigh_entryDelay (s : State) : (enterWaitHigh s).entryDelay = s.entryDelay := rfl
@[simp] theorem enterWaitHigh_fsm (s : State) : (enterWaitHigh s).fsm = .rxWaitHigh := rfl
@[simp] theorem enterWaitHigh_tBase (s : State) : (enterWaitHigh s).tBase = s.tBase := rfl
@[simp] theorem enterWaitHigh_nbits (s : State) : (enterWaitHigh s).nbits = s.nbits := rfl
@[simp] theorem enterWaitHigh_need (s : State) : (enterWaitHigh s).need = s.need := rfl
@[simp] theorem enterWaitHigh_hdr (s : State) : (enterWaitHigh s).hdr = s.hdr := rfl
@[simp] theorem enterWaitHigh_rxOp (s : State) : (enterWaitHigh s).rxOp = s.rxOp := rfl
@[simp] theorem enterWaitHigh_data (s : State) : (enterWaitHigh s).data = s.data := rfl
@[simp] theorem enterWaitHigh_waitN (s : State) : (enterWaitHigh s).waitN = 0 := rfl
@[simp] theorem enterWaitHigh_tPhase (s : State) : (enterWaitHigh s).tPhase = s.now := rfl
@[simp] theorem enterWaitHigh_rxResult (s : State) : (enterWaitHigh s).rxResult = s.rxResult := rfl
@[simp] theorem enterWaitHigh_txProg (s : State) : (enterWaitHigh s).txProg = s.txProg := rfl
@[simp] theorem enterWaitHigh_txPc (s : State) : (enterWaitHigh s).txPc = s.txPc := rfl
@[simp] theorem enterWaitHigh_txSub (s : State) : (enterWaitHigh s).txSub = s.txSub := rfl
@[simp] theorem enterWaitHigh_tSym (s : State) : (enterWaitHigh s).tSym = s.tSym := rfl
@[simp] theorem enterWaitHigh_tUntil (s : State) : (enterWaitHigh s).tUntil = s.tUntil := rfl
@[simp] theorem enterWaitHigh_now (s : State) : (enterWaitHigh s).now = s.now := rfl
@[simp] theorem enterWaitHigh_refused (s : State) : (enterWaitHigh s).refused = s.refused := rfl
@[simp] theorem enterWaitHigh_maskHold (s : State) : (enterWaitHigh s).maskHold = s.maskHold := rfl
@[simp] theorem enterWaitHigh_env (s : State) : (enterWaitHigh s).env = s.env := rfl

/-! ## beginSymbol -/

@[simp] theorem beginSymbol_cfg (k : Nat) (s : State) : (beginSymbol k s).cfg = s.cfg := rfl
@[simp] theorem beginSymbol_devLow (k : Nat) (s : State) : (beginSymbol k s).devLow = true := rfl
@[simp] theorem beginSymbol_prevLevel (k : Nat) (s : State) : (beginSymbol k s).prevLevel = s.prevLevel := rfl
@[simp] theorem beginSymbol_irqEnable (k : Nat) (s : State) : (beginSymbol k s).irqEnable = s.irqEnable := rfl
@[simp] theorem beginSymbol_edgePending (k : Nat) (s : State) : (beginSymbol k s).edgePending = s.edgePending := rfl
@[simp] theorem beginSymbol_tEdgePending (k : Nat) (s : State) : (beginSymbol k s).tEdgePending = s.tEdgePending := rfl
@[simp] theorem beginSymbol_entryDelay (k : Nat) (s : State) : (beginSymbol k s).entryDelay = s.entryDelay := rfl
@[simp] theorem beginSymbol_fsm (k : Nat) (s : State) : (beginSymbol k s).fsm = s.fsm := rfl
@[simp] theorem beginSymbol_tBase (k : Nat) (s : State) : (beginSymbol k s).tBase = s.tBase := rfl
@[simp] theorem beginSymbol_nbits (k : Nat) (s : State) : (beginSymbol k s).nbits = s.nbits := rfl
@[simp] theorem beginSymbol_need (k : Nat) (s : State) : (beginSymbol k s).need = s.need := rfl
@[simp] theorem beginSymbol_hdr (k : Nat) (s : State) : (beginSymbol k s).hdr = s.hdr := rfl
@[simp] theorem beginSymbol_rxOp (k : Nat) (s : State) : (beginSymbol k s).rxOp = s.rxOp := rfl
@[simp] theorem beginSymbol_data (k : Nat) (s : State) : (beginSymbol k s).data = s.data := rfl
@[simp] theorem beginSymbol_waitN (k : Nat) (s : State) : (beginSymbol k s).waitN = s.waitN := rfl
@[simp] theorem beginSymbol_tPhase (k : Nat) (s : State) : (beginSymbol k s).tPhase = s.tPhase := rfl
@[simp] theorem beginSymbol_rxResult (k : Nat) (s : State) : (beginSymbol k s).rxResult = s.rxResult := rfl
@[simp] theorem beginSymbol_txProg (k : Nat) (s : State) : (beginSymbol k s).txProg = s.txProg := rfl
@[simp] theorem beginSymbol_txPc (k : Nat) (s : State) : (beginSymbol k s).txPc = .bit k := rfl
@[simp] theorem beginSymbol_txSub (k : Nat) (s : State) : (beginSymbol k s).txSub = .low := rfl
@[simp] theorem beginSymbol_tSym (k : Nat) (s : State) : (beginSymbol k s).tSym = s.now := rfl
@[simp] theorem beginSymbol_tUntil (k : Nat) (s : State) : (beginSymbol k s).tUntil = s.now + symbolLow s.cfg (symbolAt s.txProg k) := rfl
@[simp] theorem beginSymbol_now (k : Nat) (s : State) : (beginSymbol k s).now = s.now := rfl
@[simp] theorem beginSymbol_refused (k : Nat) (s : State) : (beginSymbol k s).refused = s.refused := rfl
@[simp] theorem beginSymbol_maskHold (k : Nat) (s : State) : (beginSymbol k s).maskHold = s.maskHold := rfl
@[simp] theorem beginSymbol_env (k : Nat) (s : State) : (beginSymbol k s).env = s.env := rfl

/-! ## releaseBit -/

@[simp] theorem releaseBit_cfg (b : Bit) (s : State) : (releaseBit b s).cfg = s.cfg := rfl
@[simp] theorem releaseBit_devLow (b : Bit) (s : State) : (releaseBit b s).devLow = false := rfl
@[simp] theorem releaseBit_prevLevel (b : Bit) (s : State) : (releaseBit b s).prevLevel = s.prevLevel := rfl
@[simp] theorem releaseBit_irqEnable (b : Bit) (s : State) : (releaseBit b s).irqEnable = s.irqEnable := rfl
@[simp] theorem releaseBit_edgePending (b : Bit) (s : State) : (releaseBit b s).edgePending = s.edgePending := rfl
@[simp] theorem releaseBit_tEdgePending (b : Bit) (s : State) : (releaseBit b s).tEdgePending = s.tEdgePending := rfl
@[simp] theorem releaseBit_entryDelay (b : Bit) (s : State) : (releaseBit b s).entryDelay = s.entryDelay := rfl
@[simp] theorem releaseBit_fsm (b : Bit) (s : State) : (releaseBit b s).fsm = s.fsm := rfl
@[simp] theorem releaseBit_tBase (b : Bit) (s : State) : (releaseBit b s).tBase = s.tBase := rfl
@[simp] theorem releaseBit_nbits (b : Bit) (s : State) : (releaseBit b s).nbits = s.nbits := rfl
@[simp] theorem releaseBit_need (b : Bit) (s : State) : (releaseBit b s).need = s.need := rfl
@[simp] theorem releaseBit_hdr (b : Bit) (s : State) : (releaseBit b s).hdr = s.hdr := rfl
@[simp] theorem releaseBit_rxOp (b : Bit) (s : State) : (releaseBit b s).rxOp = s.rxOp := rfl
@[simp] theorem releaseBit_data (b : Bit) (s : State) : (releaseBit b s).data = s.data := rfl
@[simp] theorem releaseBit_waitN (b : Bit) (s : State) : (releaseBit b s).waitN = s.waitN := rfl
@[simp] theorem releaseBit_tPhase (b : Bit) (s : State) : (releaseBit b s).tPhase = s.tPhase := rfl
@[simp] theorem releaseBit_rxResult (b : Bit) (s : State) : (releaseBit b s).rxResult = s.rxResult := rfl
@[simp] theorem releaseBit_txProg (b : Bit) (s : State) : (releaseBit b s).txProg = s.txProg := rfl
@[simp] theorem releaseBit_txPc (b : Bit) (s : State) : (releaseBit b s).txPc = s.txPc := rfl
@[simp] theorem releaseBit_txSub (b : Bit) (s : State) : (releaseBit b s).txSub = .high := rfl
@[simp] theorem releaseBit_tSym (b : Bit) (s : State) : (releaseBit b s).tSym = s.now := rfl
@[simp] theorem releaseBit_tUntil (b : Bit) (s : State) : (releaseBit b s).tUntil = s.now + bitHigh s.cfg b := rfl
@[simp] theorem releaseBit_now (b : Bit) (s : State) : (releaseBit b s).now = s.now := rfl
@[simp] theorem releaseBit_refused (b : Bit) (s : State) : (releaseBit b s).refused = s.refused := rfl
@[simp] theorem releaseBit_maskHold (b : Bit) (s : State) : (releaseBit b s).maskHold = s.maskHold := rfl
@[simp] theorem releaseBit_env (b : Bit) (s : State) : (releaseBit b s).env = s.env := rfl

/-! ## releaseStop -/

@[simp] theorem releaseStop_cfg (s : State) : (releaseStop s).cfg = s.cfg := rfl
@[simp] theorem releaseStop_devLow (s : State) : (releaseStop s).devLow = false := rfl
@[simp] theorem releaseStop_prevLevel (s : State) : (releaseStop s).prevLevel = s.prevLevel := rfl
@[simp] theorem releaseStop_irqEnable (s : State) : (releaseStop s).irqEnable = s.irqEnable := rfl
@[simp] theorem releaseStop_edgePending (s : State) : (releaseStop s).edgePending = s.edgePending := rfl
@[simp] theorem releaseStop_tEdgePending (s : State) : (releaseStop s).tEdgePending = s.tEdgePending := rfl
@[simp] theorem releaseStop_entryDelay (s : State) : (releaseStop s).entryDelay = s.entryDelay := rfl
@[simp] theorem releaseStop_fsm (s : State) : (releaseStop s).fsm = s.fsm := rfl
@[simp] theorem releaseStop_tBase (s : State) : (releaseStop s).tBase = s.tBase := rfl
@[simp] theorem releaseStop_nbits (s : State) : (releaseStop s).nbits = s.nbits := rfl
@[simp] theorem releaseStop_need (s : State) : (releaseStop s).need = s.need := rfl
@[simp] theorem releaseStop_hdr (s : State) : (releaseStop s).hdr = s.hdr := rfl
@[simp] theorem releaseStop_rxOp (s : State) : (releaseStop s).rxOp = s.rxOp := rfl
@[simp] theorem releaseStop_data (s : State) : (releaseStop s).data = s.data := rfl
@[simp] theorem releaseStop_waitN (s : State) : (releaseStop s).waitN = s.waitN := rfl
@[simp] theorem releaseStop_tPhase (s : State) : (releaseStop s).tPhase = s.tPhase := rfl
@[simp] theorem releaseStop_rxResult (s : State) : (releaseStop s).rxResult = s.rxResult := rfl
@[simp] theorem releaseStop_txProg (s : State) : (releaseStop s).txProg = s.txProg := rfl
@[simp] theorem releaseStop_txPc (s : State) : (releaseStop s).txPc = s.txPc := rfl
@[simp] theorem releaseStop_txSub (s : State) : (releaseStop s).txSub = .doneWait := rfl
@[simp] theorem releaseStop_tSym (s : State) : (releaseStop s).tSym = s.now := rfl
@[simp] theorem releaseStop_tUntil (s : State) : (releaseStop s).tUntil = s.now + chooseUpTo s.cfg.txDoneMax s.env.draw.1 := rfl
@[simp] theorem releaseStop_now (s : State) : (releaseStop s).now = s.now := rfl
@[simp] theorem releaseStop_refused (s : State) : (releaseStop s).refused = s.refused := rfl
@[simp] theorem releaseStop_maskHold (s : State) : (releaseStop s).maskHold = s.maskHold := rfl
@[simp] theorem releaseStop_env (s : State) : (releaseStop s).env = s.env.draw.2 := rfl

/-! ## disableEdge -/

@[simp] theorem disableEdge_cfg (s : State) : (disableEdge s).cfg = s.cfg := rfl
@[simp] theorem disableEdge_devLow (s : State) : (disableEdge s).devLow = s.devLow := rfl
@[simp] theorem disableEdge_prevLevel (s : State) : (disableEdge s).prevLevel = s.prevLevel := rfl
@[simp] theorem disableEdge_irqEnable (s : State) : (disableEdge s).irqEnable = false := rfl
@[simp] theorem disableEdge_edgePending (s : State) : (disableEdge s).edgePending = s.edgePending := rfl
@[simp] theorem disableEdge_tEdgePending (s : State) : (disableEdge s).tEdgePending = s.tEdgePending := rfl
@[simp] theorem disableEdge_entryDelay (s : State) : (disableEdge s).entryDelay = s.entryDelay := rfl
@[simp] theorem disableEdge_fsm (s : State) : (disableEdge s).fsm = s.fsm := rfl
@[simp] theorem disableEdge_tBase (s : State) : (disableEdge s).tBase = s.tBase := rfl
@[simp] theorem disableEdge_nbits (s : State) : (disableEdge s).nbits = s.nbits := rfl
@[simp] theorem disableEdge_need (s : State) : (disableEdge s).need = s.need := rfl
@[simp] theorem disableEdge_hdr (s : State) : (disableEdge s).hdr = s.hdr := rfl
@[simp] theorem disableEdge_rxOp (s : State) : (disableEdge s).rxOp = s.rxOp := rfl
@[simp] theorem disableEdge_data (s : State) : (disableEdge s).data = s.data := rfl
@[simp] theorem disableEdge_waitN (s : State) : (disableEdge s).waitN = s.waitN := rfl
@[simp] theorem disableEdge_tPhase (s : State) : (disableEdge s).tPhase = s.tPhase := rfl
@[simp] theorem disableEdge_rxResult (s : State) : (disableEdge s).rxResult = s.rxResult := rfl
@[simp] theorem disableEdge_txProg (s : State) : (disableEdge s).txProg = s.txProg := rfl
@[simp] theorem disableEdge_txPc (s : State) : (disableEdge s).txPc = s.txPc := rfl
@[simp] theorem disableEdge_txSub (s : State) : (disableEdge s).txSub = s.txSub := rfl
@[simp] theorem disableEdge_tSym (s : State) : (disableEdge s).tSym = s.tSym := rfl
@[simp] theorem disableEdge_tUntil (s : State) : (disableEdge s).tUntil = s.tUntil := rfl
@[simp] theorem disableEdge_now (s : State) : (disableEdge s).now = s.now := rfl
@[simp] theorem disableEdge_refused (s : State) : (disableEdge s).refused = s.refused := rfl
@[simp] theorem disableEdge_maskHold (s : State) : (disableEdge s).maskHold = .none := rfl
@[simp] theorem disableEdge_env (s : State) : (disableEdge s).env = s.env := rfl

/-! ## rearm, returnToIdle, txComplete (R113, R121, R124) -/

@[simp] theorem rearm_cfg (s : State) : (rearm s).cfg = s.cfg := by unfold rearm; split <;> rfl
@[simp] theorem rearm_devLow (s : State) : (rearm s).devLow = s.devLow := by unfold rearm; split <;> rfl
@[simp] theorem rearm_prevLevel (s : State) : (rearm s).prevLevel = s.prevLevel := by unfold rearm; split <;> rfl
@[simp] theorem rearm_irqEnable (s : State) : (rearm s).irqEnable = s.irqEnable := by unfold rearm; split <;> rfl
@[simp] theorem rearm_edgePending (s : State) : (rearm s).edgePending = s.edgePending := by unfold rearm; split <;> rfl
@[simp] theorem rearm_entryDelay (s : State) : (rearm s).entryDelay = s.entryDelay := by unfold rearm; split <;> rfl
@[simp] theorem rearm_fsm (s : State) : (rearm s).fsm = s.fsm := by unfold rearm; split <;> rfl
@[simp] theorem rearm_tBase (s : State) : (rearm s).tBase = s.tBase := by unfold rearm; split <;> rfl
@[simp] theorem rearm_nbits (s : State) : (rearm s).nbits = s.nbits := by unfold rearm; split <;> rfl
@[simp] theorem rearm_need (s : State) : (rearm s).need = s.need := by unfold rearm; split <;> rfl
@[simp] theorem rearm_hdr (s : State) : (rearm s).hdr = s.hdr := by unfold rearm; split <;> rfl
@[simp] theorem rearm_rxOp (s : State) : (rearm s).rxOp = s.rxOp := by unfold rearm; split <;> rfl
@[simp] theorem rearm_data (s : State) : (rearm s).data = s.data := by unfold rearm; split <;> rfl
@[simp] theorem rearm_waitN (s : State) : (rearm s).waitN = s.waitN := by unfold rearm; split <;> rfl
@[simp] theorem rearm_tPhase (s : State) : (rearm s).tPhase = s.tPhase := by unfold rearm; split <;> rfl
@[simp] theorem rearm_rxResult (s : State) : (rearm s).rxResult = s.rxResult := by unfold rearm; split <;> rfl
@[simp] theorem rearm_txProg (s : State) : (rearm s).txProg = s.txProg := by unfold rearm; split <;> rfl
@[simp] theorem rearm_txPc (s : State) : (rearm s).txPc = s.txPc := by unfold rearm; split <;> rfl
@[simp] theorem rearm_txSub (s : State) : (rearm s).txSub = s.txSub := by unfold rearm; split <;> rfl
@[simp] theorem rearm_tSym (s : State) : (rearm s).tSym = s.tSym := by unfold rearm; split <;> rfl
@[simp] theorem rearm_tUntil (s : State) : (rearm s).tUntil = s.tUntil := by unfold rearm; split <;> rfl
@[simp] theorem rearm_now (s : State) : (rearm s).now = s.now := by unfold rearm; split <;> rfl
@[simp] theorem rearm_refused (s : State) : (rearm s).refused = s.refused := by unfold rearm; split <;> rfl
@[simp] theorem rearm_maskHold (s : State) : (rearm s).maskHold = s.maskHold := by unfold rearm; split <;> rfl
@[simp] theorem rearm_env (s : State) : (rearm s).env = s.env := by unfold rearm; split <;> rfl
@[simp] theorem returnToIdle_cfg (s : State) : (returnToIdle s).cfg = s.cfg := by simp [returnToIdle]
@[simp] theorem returnToIdle_devLow (s : State) : (returnToIdle s).devLow = s.devLow := by simp [returnToIdle]
@[simp] theorem returnToIdle_prevLevel (s : State) : (returnToIdle s).prevLevel = s.prevLevel := by simp [returnToIdle]
@[simp] theorem returnToIdle_irqEnable (s : State) : (returnToIdle s).irqEnable = s.irqEnable := by simp [returnToIdle]
@[simp] theorem returnToIdle_edgePending (s : State) : (returnToIdle s).edgePending = s.edgePending := by simp [returnToIdle]
@[simp] theorem returnToIdle_entryDelay (s : State) : (returnToIdle s).entryDelay = s.entryDelay := by simp [returnToIdle]
@[simp] theorem returnToIdle_fsm (s : State) : (returnToIdle s).fsm = .idle := by simp [returnToIdle]
@[simp] theorem returnToIdle_tBase (s : State) : (returnToIdle s).tBase = s.tBase := by simp [returnToIdle]
@[simp] theorem returnToIdle_nbits (s : State) : (returnToIdle s).nbits = s.nbits := by simp [returnToIdle]
@[simp] theorem returnToIdle_need (s : State) : (returnToIdle s).need = s.need := by simp [returnToIdle]
@[simp] theorem returnToIdle_hdr (s : State) : (returnToIdle s).hdr = s.hdr := by simp [returnToIdle]
@[simp] theorem returnToIdle_rxOp (s : State) : (returnToIdle s).rxOp = s.rxOp := by simp [returnToIdle]
@[simp] theorem returnToIdle_data (s : State) : (returnToIdle s).data = s.data := by simp [returnToIdle]
@[simp] theorem returnToIdle_waitN (s : State) : (returnToIdle s).waitN = s.waitN := by simp [returnToIdle]
@[simp] theorem returnToIdle_tPhase (s : State) : (returnToIdle s).tPhase = s.tPhase := by simp [returnToIdle]
@[simp] theorem returnToIdle_rxResult (s : State) : (returnToIdle s).rxResult = .none := by simp [returnToIdle]
@[simp] theorem returnToIdle_txProg (s : State) : (returnToIdle s).txProg = s.txProg := by simp [returnToIdle]
@[simp] theorem returnToIdle_txPc (s : State) : (returnToIdle s).txPc = s.txPc := by simp [returnToIdle]
@[simp] theorem returnToIdle_txSub (s : State) : (returnToIdle s).txSub = s.txSub := by simp [returnToIdle]
@[simp] theorem returnToIdle_tSym (s : State) : (returnToIdle s).tSym = s.tSym := by simp [returnToIdle]
@[simp] theorem returnToIdle_tUntil (s : State) : (returnToIdle s).tUntil = s.tUntil := by simp [returnToIdle]
@[simp] theorem returnToIdle_now (s : State) : (returnToIdle s).now = s.now := by simp [returnToIdle]
@[simp] theorem returnToIdle_refused (s : State) : (returnToIdle s).refused = s.refused := by simp [returnToIdle]
@[simp] theorem returnToIdle_maskHold (s : State) : (returnToIdle s).maskHold = s.maskHold := by simp [returnToIdle]
@[simp] theorem returnToIdle_env (s : State) : (returnToIdle s).env = s.env := by simp [returnToIdle]
@[simp] theorem txComplete_cfg (s : State) : (txComplete s).cfg = s.cfg := by simp [txComplete]
@[simp] theorem txComplete_devLow (s : State) : (txComplete s).devLow = s.devLow := by simp [txComplete]
@[simp] theorem txComplete_prevLevel (s : State) : (txComplete s).prevLevel = s.prevLevel := by simp [txComplete]
@[simp] theorem txComplete_irqEnable (s : State) : (txComplete s).irqEnable = s.irqEnable := by simp [txComplete]
@[simp] theorem txComplete_edgePending (s : State) : (txComplete s).edgePending = s.edgePending := by simp [txComplete]
@[simp] theorem txComplete_entryDelay (s : State) : (txComplete s).entryDelay = s.entryDelay := by simp [txComplete]
@[simp] theorem txComplete_fsm (s : State) : (txComplete s).fsm = .idle := by simp [txComplete]
@[simp] theorem txComplete_tBase (s : State) : (txComplete s).tBase = s.tBase := by simp [txComplete]
@[simp] theorem txComplete_nbits (s : State) : (txComplete s).nbits = s.nbits := by simp [txComplete]
@[simp] theorem txComplete_need (s : State) : (txComplete s).need = s.need := by simp [txComplete]
@[simp] theorem txComplete_hdr (s : State) : (txComplete s).hdr = s.hdr := by simp [txComplete]
@[simp] theorem txComplete_rxOp (s : State) : (txComplete s).rxOp = s.rxOp := by simp [txComplete]
@[simp] theorem txComplete_data (s : State) : (txComplete s).data = s.data := by simp [txComplete]
@[simp] theorem txComplete_waitN (s : State) : (txComplete s).waitN = s.waitN := by simp [txComplete]
@[simp] theorem txComplete_tPhase (s : State) : (txComplete s).tPhase = s.tPhase := by simp [txComplete]
@[simp] theorem txComplete_rxResult (s : State) : (txComplete s).rxResult = s.rxResult := by simp [txComplete]
@[simp] theorem txComplete_txProg (s : State) : (txComplete s).txProg = s.txProg := by simp [txComplete]
@[simp] theorem txComplete_txPc (s : State) : (txComplete s).txPc = .stop := by simp [txComplete]
@[simp] theorem txComplete_txSub (s : State) : (txComplete s).txSub = s.txSub := by simp [txComplete]
@[simp] theorem txComplete_tSym (s : State) : (txComplete s).tSym = s.tSym := by simp [txComplete]
@[simp] theorem txComplete_tUntil (s : State) : (txComplete s).tUntil = s.tUntil := by simp [txComplete]
@[simp] theorem txComplete_now (s : State) : (txComplete s).now = s.now := by simp [txComplete]
@[simp] theorem txComplete_refused (s : State) : (txComplete s).refused = s.refused := by simp [txComplete]
@[simp] theorem txComplete_maskHold (s : State) : (txComplete s).maskHold = s.maskHold := by simp [txComplete]
@[simp] theorem txComplete_env (s : State) : (txComplete s).env = s.env := by simp [txComplete]

/-! ## The reset state (R150) -/

section
variable (cfg : Config) (level : Bit) (data : Block)

@[simp] theorem resetWith_cfg : (State.resetWith cfg level data).cfg = cfg := rfl
@[simp] theorem resetWith_devLow : (State.resetWith cfg level data).devLow = false := rfl
@[simp] theorem resetWith_prevLevel : (State.resetWith cfg level data).prevLevel = level := rfl
@[simp] theorem resetWith_irqEnable : (State.resetWith cfg level data).irqEnable = false := rfl
@[simp] theorem resetWith_edgePending : (State.resetWith cfg level data).edgePending = false := rfl
@[simp] theorem resetWith_tEdgePending : (State.resetWith cfg level data).tEdgePending = 0 := rfl
@[simp] theorem resetWith_entryDelay : (State.resetWith cfg level data).entryDelay = 0 := rfl
@[simp] theorem resetWith_fsm : (State.resetWith cfg level data).fsm = .idle := rfl
@[simp] theorem resetWith_tBase : (State.resetWith cfg level data).tBase = 0 := rfl
@[simp] theorem resetWith_nbits : (State.resetWith cfg level data).nbits = 0 := rfl
@[simp] theorem resetWith_need : (State.resetWith cfg level data).need = none := rfl
@[simp] theorem resetWith_hdr : (State.resetWith cfg level data).hdr = 0#24 := rfl
@[simp] theorem resetWith_rxOp : (State.resetWith cfg level data).rxOp = 0#8 := rfl
@[simp] theorem resetWith_data : (State.resetWith cfg level data).data = data := rfl
@[simp] theorem resetWith_waitN : (State.resetWith cfg level data).waitN = 0 := rfl
@[simp] theorem resetWith_tPhase : (State.resetWith cfg level data).tPhase = 0 := rfl
@[simp] theorem resetWith_rxResult : (State.resetWith cfg level data).rxResult = .none := rfl
@[simp] theorem resetWith_txProg : (State.resetWith cfg level data).txProg = [] := rfl
@[simp] theorem resetWith_txPc : (State.resetWith cfg level data).txPc = .stop := rfl
@[simp] theorem resetWith_txSub : (State.resetWith cfg level data).txSub = .doneWait := rfl
@[simp] theorem resetWith_tSym : (State.resetWith cfg level data).tSym = 0 := rfl
@[simp] theorem resetWith_tUntil : (State.resetWith cfg level data).tUntil = 0 := rfl
@[simp] theorem resetWith_now : (State.resetWith cfg level data).now = 0 := rfl
@[simp] theorem resetWith_refused : (State.resetWith cfg level data).refused = false := rfl
@[simp] theorem resetWith_maskHold : (State.resetWith cfg level data).maskHold = .none := rfl
@[simp] theorem resetWith_env : (State.resetWith cfg level data).env = Env.unlisted := rfl

end

end Sys2Proof.Machine
end

