-- ==== Sys2Proof/Laws/Ops.lean ====
section
/-! SUPPORT. Laws/Ops.lean: for each shared operation, one lemma that says all it can do. -/

namespace Sys2Proof.Machine

/-! ## The meanings -/

/-- Every command completes, with its own byte and frame. -/
theorem exec_eq (i : Instr) (s : State) :
    exec i s = .next (completeCommand i.opcode i.frame s) := by
  cases i <;> rfl

/-! ## Draws and inputs -/

@[simp] theorem draw_inputs (e : Env) : e.draw.2.inputs = e.inputs := by
  unfold Env.draw; split <;> rfl

@[simp] theorem draw_inputIx (e : Env) : e.draw.2.inputIx = e.inputIx := by
  unfold Env.draw; split <;> rfl

@[simp] theorem draw_resetIx (e : Env) : e.draw.2.resetIx = e.resetIx := by
  unfold Env.draw; split <;> rfl

/-- A draw does not touch the inputs. -/
@[simp] theorem draw_input (e : Env) : e.draw.2.input = e.input := by
  simp only [Env.input, draw_inputs, draw_inputIx]

/-- A choice is in its range. -/
theorem chooseUpTo_le (bound v : Nat) : chooseUpTo bound v ≤ bound := by
  unfold chooseUpTo
  split
  · exact Nat.le_refl 0
  · split
    · assumption
    · exact Nat.le_of_lt_succ (Nat.mod_lt _ (Nat.succ_pos _))

/-- Every choice in the range stands for itself. -/
theorem chooseUpTo_of_le {bound v : Nat} (h : v ≤ bound) : chooseUpTo bound v = v := by
  unfold chooseUpTo
  split
  · exact (Nat.le_zero.mp h).symm
  · exact if_pos h

/-- The inputs listed after a tick. -/
@[simp] theorem advance_inputs (e : Env) : e.advance.inputs = e.inputs.tail := by
  rcases e with ⟨_ | ⟨x, xs⟩, ds, ix, dx⟩ <;> rfl

/-- The end of a tick leaves the draws alone. -/
@[simp] theorem advance_draws (e : Env) : e.advance.draws = e.draws := by
  unfold Env.advance; split <;> rfl

@[simp] theorem advance_drawIx (e : Env) : e.advance.drawIx = e.drawIx := by
  unfold Env.advance; split <;> rfl

@[simp] theorem advance_resetIx (e : Env) : e.advance.resetIx = e.resetIx := by
  unfold Env.advance; split <;> rfl

/-- With an input listed, it is the tick's input. -/
theorem input_of_cons {e : Env} {x : TickInput} {xs : List TickInput} (h : e.inputs = x :: xs) :
    e.input = x := by
  simp only [Env.input, h]

/-! ## Re-arming and returning -/

/-- Re-arming re-bases a pending edge of an enabled trigger, and does nothing else (R121). -/
theorem rearm_cases (s : State) :
    (s.irqEnable = true ∧ s.edgePending = true ∧ rearm s = { s with tEdgePending := s.now })
      ∨ ((s.irqEnable = false ∨ s.edgePending = false) ∧ rearm s = s) := by
  unfold rearm
  cases s.irqEnable <;> cases s.edgePending <;> simp

/-- Re-arming writes `t_edge_pending` only. -/
theorem rearm_frame (s : State) : rearm s = { s with tEdgePending := (rearm s).tEdgePending } := by
  rcases rearm_cases s with ⟨-, -, h⟩ | ⟨-, h⟩ <;> rw [h]

/-! ## Requests -/

/-- What a transmit request does (R105 to R107). -/
theorem transmit_cases (f : ProtocolFrame) (s : State) :
    (transmitAccepted f s = true ∧ transmit f s =
      { s with
        txProg := wireBits f, txPc := .bit 0, txSub := .startWait, tSym := s.now
        tUntil := s.now + chooseUpTo s.cfg.txStartMax s.env.draw.1
        rxResult := .none, fsm := .tx, env := s.env.draw.2 })
      ∨ (transmitAccepted f s = false ∧ transmit f s = refuseRequest s) := by
  unfold transmit
  cases transmitAccepted f s <;> simp

/-- An accepted transmit request stands in a hand-off after `OK(_)`, with a valid frame. -/
theorem transmitAccepted_iff (f : ProtocolFrame) (s : State) :
    transmitAccepted f s = true ↔
      s.fsm = .handoff ∧ (∃ g, s.rxResult = .ok g) ∧ frameValid s.cfg f = true := by
  unfold transmitAccepted
  cases h : s.rxResult <;> simp [RxResult.isOk]

/-- What a release request does (R124). -/
theorem release_cases (s : State) :
    (s.fsm = .handoff ∧ release s = rearm { s with rxResult := .none, fsm := .idle })
      ∨ (s.fsm ≠ .handoff ∧ release s = refuseRequest s) := by
  unfold release returnToIdle
  by_cases h : s.fsm = .handoff <;> simp [h]

/-- The fields a request of the flush sequence may write (R126, R127): nothing else changes. -/
def flushWrites (s t : State) : Prop :=
  ∃ irq ep te mh env, env.inputs = s.env.inputs ∧ env.inputIx = s.env.inputIx ∧
    t = { s with irqEnable := irq, edgePending := ep, tEdgePending := te, maskHold := mh, env := env }

theorem flushWrites_refl (s : State) : flushWrites s s :=
  ⟨s.irqEnable, s.edgePending, s.tEdgePending, s.maskHold, s.env, rfl, rfl, rfl⟩

theorem flushWrites_trans {s t u : State} (h : flushWrites s t) (g : flushWrites t u) :
    flushWrites s u := by
  obtain ⟨_, _, _, _, _, hi, hx, rfl⟩ := h
  obtain ⟨irq, ep, te, mh, env, gi, gx, rfl⟩ := g
  exact ⟨irq, ep, te, mh, env, gi.trans hi, gx.trans hx, rfl⟩

/-- What a draw of R126 can do. -/
theorem maskDraw_cases (s : State) :
    maskDraw s = { s with env := s.env.draw.2, maskHold := .untilClear }
      ∨ (s.cfg.staleEdge = .discard ∧ maskDraw s =
          { s with env := s.env.draw.2, edgePending := false, irqEnable := false, maskHold := .none })
      ∨ (s.cfg.staleEdge = .latch ∧ maskDraw s =
          { s with env := s.env.draw.2, irqEnable := false, maskHold := .none }) := by
  unfold maskDraw disableEdge
  by_cases h : (s.env.draw.1 % 2 == 1) = true
  · simp [h]
  · cases s.cfg.staleEdge <;> simp [h]

/-- What a mask attempt can do (R126). -/
theorem maskAttempt_cases (s : State) :
    (s.irqEnable = false ∧ maskAttempt s = { s with maskHold := .none })
      ∨ (s.irqEnable = true ∧ s.fsm ≠ .idle ∧ maskAttempt s = { s with maskHold := .untilIdle })
      ∨ (s.irqEnable = true ∧ s.fsm = .idle ∧ s.edgePending = true ∧ maskAttempt s = maskDraw s)
      ∨ (s.irqEnable = true ∧ s.fsm = .idle ∧ s.edgePending = false
          ∧ maskAttempt s = { s with irqEnable := false, maskHold := .none }) := by
  unfold maskAttempt disableEdge
  cases hi : s.irqEnable <;> cases he : s.edgePending <;> by_cases hf : s.fsm = .idle <;> simp [hf]

/-- What a held mask can do when it looks again (R126): it waits for the pending receive, or it attempts
the mask, or it takes effect. -/
theorem maskResume_cases (s : State) :
    (s.maskHold = .none ∧ maskResume s = s)
      ∨ (s.maskHold = .untilIdle ∧ maskResume s = maskAttempt s)
      ∨ (s.maskHold = .untilClear ∧ s.fsm = .idle ∧ s.edgePending = false
          ∧ maskResume s = { s with irqEnable := false, maskHold := .none })
      ∨ (s.maskHold = .untilClear ∧ (s.fsm ≠ .idle ∨ s.edgePending = true) ∧ maskResume s = s) := by
  unfold maskResume disableEdge
  cases hm : s.maskHold <;> cases he : s.edgePending <;> by_cases hf : s.fsm = .idle <;> simp [hf]

theorem maskDraw_writes (s : State) : flushWrites s (maskDraw s) := by
  rcases maskDraw_cases s with h | ⟨-, h⟩ | ⟨-, h⟩ <;> rw [h] <;>
    exact ⟨_, _, _, _, _, draw_inputs s.env, draw_inputIx s.env, rfl⟩

theorem maskAttempt_writes (s : State) : flushWrites s (maskAttempt s) := by
  rcases maskAttempt_cases s with ⟨-, h⟩ | ⟨-, -, h⟩ | ⟨-, -, -, h⟩ | ⟨-, -, -, h⟩ <;> rw [h]
  · exact ⟨_, _, _, _, _, rfl, rfl, rfl⟩
  · exact ⟨_, _, _, _, _, rfl, rfl, rfl⟩
  · exact maskDraw_writes s
  · exact ⟨_, _, _, _, _, rfl, rfl, rfl⟩

theorem maskResume_writes (s : State) : flushWrites s (maskResume s) := by
  unfold maskResume
  split
  · exact flushWrites_refl s
  · exact maskAttempt_writes s
  · split
    · exact ⟨_, _, _, _, _, rfl, rfl, rfl⟩
    · exact flushWrites_refl s

/-- What an unmask does (R127). -/
theorem unmask_cases (s : State) :
    (s.irqEnable = true ∧ unmask s = s)
      ∨ (s.irqEnable = false ∧ s.edgePending = true
          ∧ unmask s = { s with irqEnable := true, tEdgePending := s.now })
      ∨ (s.irqEnable = false ∧ s.edgePending = false ∧ unmask s = { s with irqEnable := true }) := by
  unfold unmask
  cases s.irqEnable <;> cases s.edgePending <;> simp

theorem flushRequest_writes (s : State) (r : FlushRequest) : flushWrites s (flushRequest s r) := by
  cases r with
  | mask =>
    show flushWrites s (mask s)
    unfold mask
    split
    · exact maskAttempt_writes s
    · exact flushWrites_refl s
  | unmask =>
    show flushWrites s (unmask s)
    rcases unmask_cases s with ⟨-, h⟩ | ⟨-, -, h⟩ | ⟨-, -, h⟩ <;> rw [h] <;>
      exact ⟨_, _, _, _, _, rfl, rfl, rfl⟩

/-- All the flush requests of a tick together write only those fields. -/
theorem flushRequests_writes (rs : List FlushRequest) (s : State) :
    flushWrites s (rs.foldl flushRequest s) := by
  induction rs generalizing s with
  | nil => exact flushWrites_refl s
  | cons r rs ih => exact flushWrites_trans (flushRequest_writes s r) (ih _)

/-! ## The edge trigger -/

/-- What a falling edge can do (R120, R121): latch, or nothing. -/
theorem fallingEdge_cases (s : State) :
    (s.edgePending = false ∧ (s.armed = true ∨ s.cfg.staleEdge = .latch) ∧ fallingEdge s = latchEdge s)
      ∨ ((s.edgePending = true ∨ (s.armed = false ∧ s.cfg.staleEdge = .discard))
          ∧ fallingEdge s = s) := by
  unfold fallingEdge staleEdge
  cases s.armed <;> cases s.edgePending <;> cases s.cfg.staleEdge <;> simp

/-! ## The receive path -/

/-- Storing a bit writes `hdr` or `data` or nothing (R87). -/
theorem rxStore_cases (b : Bit) (s : State) :
    rxStore b s = s ∨ rxStore b s = { s with hdr := shiftHeader s.hdr b }
      ∨ rxStore b s = { s with data := shiftData s.data ((s.nbits - 25) / 8) b } := by
  unfold rxStore
  split
  · exact .inl rfl
  · split
    · exact .inr (.inl rfl)
    · exact .inr (.inr rfl)

/-- What a read of a phase that does not end it does (R89, R90). -/
theorem countRead_cases (phase : WaitPhase) (s : State) :
    (s.waitN + 1 = s.cfg.waitBudget ∧ countRead phase s =
        { s with waitN := s.waitN + 1, fsm := .handoff
                 rxResult := .err { phase := phase, bits := s.nbits } })
      ∨ (s.waitN + 1 ≠ s.cfg.waitBudget ∧ countRead phase s = { s with waitN := s.waitN + 1 }) := by
  unfold countRead raiseTimeout
  by_cases h : s.waitN + 1 = s.cfg.waitBudget <;> simp [h]

/-- The sample runs the fetched instruction when the frame is whole, else it begins phase A (R86). -/
theorem rxSample_cases (s : State) :
    ((rxTake s.line s).frameWhole = true ∧ rxSample s = .next
        (completeCommand (rxTake s.line s).fetched.opcode (rxTake s.line s).fetched.frame (rxTake s.line s)))
      ∨ ((rxTake s.line s).frameWhole = false ∧ rxSample s = .next (enterWaitHigh (rxTake s.line s))) := by
  unfold rxSample
  cases h : (rxTake s.line s).frameWhole
  · exact .inr ⟨rfl, by simp [h]⟩
  · exact .inl ⟨rfl, by simp [h, exec_eq]⟩

/-- Every due receive rule goes on. -/
theorem rxRule_next (s : State) : rxRule s = none ∨ ∃ t, rxRule s = some (.next t) := by
  unfold rxRule
  split
  · split
    · exact .inr ⟨_, rfl⟩
    · exact .inl rfl
  · split
    · rcases rxSample_cases s with ⟨-, h⟩ | ⟨-, h⟩ <;> exact .inr ⟨_, congrArg some h⟩
    · exact .inl rfl
  · split
    · exact .inr ⟨_, rfl⟩
    · exact .inl rfl
  · split
    · exact .inr ⟨_, rfl⟩
    · exact .inl rfl
  · exact .inl rfl
  · exact .inl rfl

/-- Repeating the receive rules goes on. -/
theorem rxRepeat_next (fuel : Nat) (s : State) : ∃ t, rxRepeat fuel s = .next t := by
  induction fuel generalizing s with
  | zero => exact ⟨s, rfl⟩
  | succ fuel ih =>
    unfold rxRepeat
    rcases rxRule_next s with h | ⟨t, h⟩ <;> rw [h]
    · exact ⟨s, rfl⟩
    · exact ih t

/-! ## The serializer -/

/-- The rule of the serializer that holds now (R108 to R113), named. -/
theorem txRule_cases (s : State) :
    txRule s = none
      ∨ (s.fsm = .tx ∧ s.now = s.tUntil ∧ ∃ k, s.txPc = .bit k ∧
          ((s.txSub = .startWait ∧ txRule s = some (beginSymbol k s))
            ∨ (s.txSub = .low ∧ txRule s = some (endLow k s))
            ∨ (s.txSub = .high ∧ txRule s = some (beginSymbol (k + 1) s))
            ∨ (s.txSub = .doneWait ∧ txRule s = some (txComplete s)))) := by
  unfold txRule
  by_cases hf : s.fsm = .tx
  · by_cases hn : s.now = s.tUntil
    · cases hp : s.txPc with
      | stop => simp [hf, hn]
      | bit k => cases hs : s.txSub <;> simp [hf, hn]
    · simp [hn]
  · simp [hf]

/-! ## Quiescence: the fuel of R132 steps 1 and 4 is enough -/

/-- The configuration is one the model accepts (R144). -/
theorem configProblem_none_iff (cfg : Config) :
    configProblem cfg = none ↔ parametersInRange cfg = true ∧ counterWideEnough cfg = true := by
  unfold configProblem
  cases parametersInRange cfg <;> cases counterWideEnough cfg <;> simp

/-- The stated ranges, one by one (R9, R12, R13, R18, R21). -/
theorem parametersInRange_iff (cfg : Config) :
    parametersInRange cfg = true ↔
      1 ≤ cfg.ticksPerUs ∧ 1 ≤ cfg.waitBudget ∧ 1 ≤ cfg.pollTicks ∧ 1 ≤ cfg.t0Low ∧ 1 ≤ cfg.t0High
        ∧ 1 ≤ cfg.t1Low ∧ 1 ≤ cfg.t1High ∧ 1 ≤ cfg.tStopLow
        ∧ Config.minFrameBits ≤ cfg.maxFrameBits := by
  unfold parametersInRange
  simp only [Bool.and_eq_true, decide_eq_true_eq, and_assoc]

/-- With pulse widths of at least 1, a symbol's low part lasts. -/
theorem symbolLow_pos {cfg : Config} (h : parametersInRange cfg = true) (y : WireSymbol) :
    1 ≤ symbolLow cfg y := by
  obtain ⟨-, -, -, h0, -, h1, -, hs, -⟩ := (parametersInRange_iff cfg).mp h
  match y with
  | .data false => exact h0
  | .data true => exact h1
  | .stop => exact hs

/-- With pulse widths of at least 1, a bit's released part lasts. -/
theorem bitHigh_pos {cfg : Config} (h : parametersInRange cfg = true) (b : Bit) :
    1 ≤ bitHigh cfg b := by
  obtain ⟨-, -, -, -, h0, -, h1, -, -⟩ := (parametersInRange_iff cfg).mp h
  cases b
  · exact h0
  · exact h1

/-- No serializer rule holds before the end of the current phase. -/
theorem txRule_none_of_lt {s : State} (h : s.now < s.tUntil) : txRule s = none := by
  unfold txRule
  simp [Nat.ne_of_lt h]

/-- No serializer rule holds outside `TX`. -/
theorem txRule_none_of_ne {s : State} (h : s.fsm ≠ .tx) : txRule s = none := by
  unfold txRule
  simp [h]

/-- After at most two rules none holds: R132's "repeating until none holds" is exact. -/
theorem serialize_quiescent {s : State} (h : parametersInRange s.cfg = true) :
    txRule (serialize s) = none := by
  have begun : ∀ k u, parametersInRange u.cfg = true → txRule (beginSymbol k u) = none := fun k u hu =>
    txRule_none_of_lt (Nat.lt_add_of_pos_right (symbolLow_pos hu _))
  have completed : ∀ u, txRule (txComplete u) = none := fun u =>
    txRule_none_of_ne (by simp)
  have ended : ∀ k u, parametersInRange u.cfg = true → ∃ t, endLow k u = t ∧
      (txRule t = none ∨ txRule t = some (txComplete t)) := by
    intro k u hu
    refine ⟨_, rfl, ?_⟩
    unfold endLow
    split
    · exact .inl (txRule_none_of_lt (Nat.lt_add_of_pos_right (bitHigh_pos hu _)))
    · rcases txRule_cases (releaseStop u) with g | ⟨-, -, k', -, ⟨hs, -⟩ | ⟨hs, -⟩ | ⟨hs, -⟩ | ⟨-, g⟩⟩
      · exact .inl g
      · simp at hs
      · simp at hs
      · simp at hs
      · exact .inr g
  rcases txRule_cases s with g | ⟨-, -, k, -, ⟨-, g⟩ | ⟨-, g⟩ | ⟨-, g⟩ | ⟨-, g⟩⟩
  · simp [serialize, txRepeat, g]
  · simp [serialize, txRepeat, g, begun k s h]
  · obtain ⟨t, ht, h1 | h1⟩ := ended k s h
    · simp [serialize, txRepeat, g, ht, h1]
    · simp [serialize, txRepeat, g, ht, h1, completed]
  · simp [serialize, txRepeat, g, begun (k + 1) s h]
  · simp [serialize, txRepeat, g, completed]

/-! ## Steps -/

/-- A reset leaves the reset state of its own configuration, and counts itself (R151). -/
theorem applyReset_eq (s : State) : ∃ level data, applyReset s = { State.resetWith s.cfg level data with
    env := { s.env.draw.2.advance with resetIx := s.env.resetIx + 1 } } :=
  ⟨_, _, rfl⟩

/-- One step of an accepted configuration, as the order of R132 has it. -/
theorem step_cases (s : State) :
    (∃ r, configProblem s.cfg = some r ∧ step s = .refused r)
      ∨ (configProblem s.cfg = none ∧ s.env.input.reset = true ∧ step s = .next (applyReset s))
      ∨ (configProblem s.cfg = none ∧ s.env.input.reset = false
          ∧ ∃ t, receive (settle s) = .next t ∧ step s = .next (advanceTime t)) := by
  unfold step checkedTick
  cases hc : configProblem s.cfg with
  | some r => exact .inl ⟨r, rfl, rfl⟩
  | none =>
    refine .inr ?_
    unfold tick
    cases hr : s.env.input.reset
    · obtain ⟨t, ht⟩ := rxRepeat_next 2 (settle s)
      exact .inr ⟨rfl, rfl, t, ht, by simp [receive, ht, finishTick]⟩
    · exact .inl ⟨rfl, rfl, by simp⟩

end Sys2Proof.Machine
end

