-- ==== Sys2Proof/Laws/PerInstr.lean ====
section
/-! SUPPORT. Laws/PerInstr.lean: facts about each instruction as syntax, one lemma per constructor. -/

namespace Sys2Proof.Laws

/-- An instruction's encoding has the length of its command byte (R70). -/
def EncodedLength.Statement (i : Instr) : Prop :=
  i.wf = true → ∀ extStop stop : Bool, (encode extStop stop i).length = frameNeed extStop i.opcode

theorem EncodedLength.identify : EncodedLength.Statement .identify := fun _ extStop _ => by
  cases extStop <;> rfl

theorem EncodedLength.poll : EncodedLength.Statement .poll := fun _ extStop _ => by
  cases extStop <;> rfl

theorem EncodedLength.blockRead (addr : Half) : EncodedLength.Statement (.blockRead addr) :=
  fun _ extStop _ => by
    cases extStop <;>
      simp [encode, Instr.operandBits, Instr.opcode, frameNeed, hasStop, isExtended, formatOf,
        FrameFormat.bodyBits]

theorem EncodedLength.blockWrite (addr : Half) (data : Block) :
    EncodedLength.Statement (.blockWrite addr data) :=
  fun _ extStop _ => by
    cases extStop <;>
      simp [encode, Instr.operandBits, Instr.opcode, frameNeed, hasStop, isExtended, formatOf,
        FrameFormat.bodyBits]

theorem EncodedLength.kbdStatus (led : Byte) : EncodedLength.Statement (.kbdStatus led) :=
  fun _ extStop _ => by
    cases extStop <;>
      simp [encode, Instr.operandBits, Instr.opcode, frameNeed, hasStop, isExtended, formatOf,
        FrameFormat.bodyBits]

theorem EncodedLength.identifyFF : EncodedLength.Statement .identifyFF := fun _ extStop _ => by
  cases extStop <;> rfl

theorem EncodedLength.unrecognized (op : Byte) : EncodedLength.Statement (.unrecognized op) := by
  intro h extStop stop
  have hop : op ≠ 0x02#8 ∧ op ≠ 0x03#8 ∧ op ≠ 0x13#8 := by
    refine ⟨?_, ?_, ?_⟩ <;> rintro rfl <;> exact absurd h (by decide)
  obtain ⟨h2, h3, h13⟩ := hop
  simp [encode, Instr.operandBits, Instr.opcode, frameNeed, hasStop, isExtended, formatOf, h2, h3, h13,
    FrameFormat.bodyBits]

end Sys2Proof.Laws
end

