-- ==== Sys2Proof/Tests/Slice0.lean ====
section
/-! SUPPORT. Tests/Slice0.lean: smoke tests of the checks, frames written out from the spec's encodings,
single ticks of the vectors of 95_test_vectors.md, and for each statement with hypotheses a state that
meets them. -/

namespace Sys2Proof.Tests

open Sys2Proof Sys2Proof.Machine

/-! ## Helpers -/

/-- An armed idle machine of EX1 (95_test_vectors.md section 0) with one listed input. -/
def start (x : TickInput) : State :=
  { State.reset with irqEnable := true, env := { Env.unlisted with inputs := [x] } }

/-- One step, and a check of the state it gives. -/
def stepsTo (s : State) (p : State → Bool) : Bool :=
  match step s with
  | .next t => p t
  | _ => false

def high : TickInput := { consoleLow := false }
def low : TickInput := { consoleLow := true }

/-- EX1 without the console stop bit of extended frames (EX1n). -/
def ex1n : Config := { Config.ex1 with extStop := false }

/-- EX1 with latched stale edges (EX1L). -/
def ex1L : Config := { Config.ex1 with staleEdge := .latch }

/-- The hand-off after RX-1 at tick 40. -/
def handedOff (x : TickInput) : State :=
  { start x with
    fsm := .handoff, rxResult := .ok (.cmd1 0x00#8), nbits := 9, need := some 9, now := 40 }

/-- The identify response of vector TX-1. -/
def identifyFrame : ProtocolFrame := [⟨0x0500, 16⟩, ⟨0x01, 8⟩]

/-- A transmission of the bits 0, 1 in the low part of a symbol that ends at tick 50. -/
def sending (k : Nat) : State :=
  { start high with
    fsm := .tx, txProg := [false, true], txPc := .bit k, txSub := .low, devLow := true
    now := 50, tUntil := 50 }

/-- A phase at its read number `n + 1`, after bit 8. -/
def waiting (f : Fsm) (n : Nat) (x : TickInput) : State :=
  { start x with fsm := f, nbits := 8, waitN := n, tPhase := 30, now := 31 + n }

/-! ## The checks refuse ill-formed terms -/

theorem test_wf_refuses_named_byte : (Instr.unrecognized 0x13#8).wf = false := by decide
theorem test_wf_takes_other_byte : (Instr.unrecognized 0x42#8).wf = true := by decide
/-- Vectors TX-R2 to TX-R5. -/
theorem test_frame_check_refuses :
    frameValid Config.ex1 [] = false ∧ frameValid Config.ex1 [⟨0x100, 8⟩] = false
    ∧ frameValid Config.ex1 [⟨1, 0⟩] = false ∧ frameValid Config.ex1 [⟨1, 33⟩] = false
    ∧ frameValid Config.ex1 (List.replicate 34 ⟨0, 8⟩) = false := by decide
theorem test_frame_check_takes : frameValid Config.ex1 (List.replicate 33 ⟨0, 8⟩) = true := by decide
theorem test_config_check_refuses :
    configProblem { Config.ex1 with pollTicks := 0 } = some .parameterOutOfRange
    ∧ configProblem { Config.ex1 with tickWidth := 1 } = some .counterTooNarrow
    ∧ configProblem Config.ex1 = none := by decide

/-! ## Decoding, from the bit tables of R71 to R74 -/

theorem test_decode_identify : decode true
    [false, false, false, false, false, false, false, false, true] = .ok (.identify, []) := by decide
theorem test_decode_poll : decode true
    [false, false, false, false, false, false, false, true, true] = .ok (.poll, []) := by decide
theorem test_decode_identifyFF : decode true
    [true, true, true, true, true, true, true, true, true] = .ok (.identifyFF, []) := by decide
theorem test_decode_unrecognized : decode true
    [false, true, false, false, false, false, true, false, true]
      = .ok (.unrecognized 0x42#8, []) := by decide
theorem test_decode_kbdStatus : decode true
    [false, false, false, true, false, false, true, true,
     false, false, false, false, false, true, false, true, true] = .ok (.kbdStatus 0x05#8, []) := by
  decide
theorem test_decode_blockRead : decode true
    [false, false, false, false, false, false, true, false,
     true, false, false, false, false, false, false, false,
     false, false, false, false, false, false, false, true, true]
      = .ok (.blockRead 0x8001#16, []) := by decide
/-- Vector RX-7's frame: address 0xC01B, payload 0x01 and then zeros. -/
theorem test_decode_blockWrite : decode true
    ([false, false, false, false, false, false, true, true,
      true, true, false, false, false, false, false, false,
      false, false, false, true, true, false, true, true,
      false, false, false, false, false, false, false, true]
      ++ List.replicate 248 false ++ [true])
      = .ok (.blockWrite 0xC01B#16 ((Vector.replicate 32 0x00#8).set 0 0x01#8), []) := by
  decide +kernel
theorem test_decode_truncated : decode true
    [false, false, false, true, false, false, true, true, false]
      = .error (.truncated 0x13#8 17 9) := by decide
theorem test_decodeTableWord_second_byte_first :
    decodeTableWord 24 0x018002 = some (.blockRead 0x8001#16) := by decide +kernel

/-! ## Single ticks of the vectors -/

/-- RX-2: the 9th bit's sample delivers `Cmd1 0x01`. -/
theorem test_poll_delivered : stepsTo (State.reset.withFetchWord 16 0x8001) (fun t =>
    t.rxResult == .ok (.cmd1 0x01#8) && t.hdr == 0x000003#24 && t.need == some 9) = true := by decide
/-- RX-8: a stop bit read as 0 is accepted. -/
theorem test_identify_stop_zero : stepsTo (State.reset.withFetchWord 8 0x00) (fun t =>
    t.rxResult == .ok (.cmd1 0x00#8) && t.hdr == 0x000000#24 && t.fsm == .handoff) = true := by decide
/-- RX-3. -/
theorem test_identifyFF_delivered : stepsTo (State.reset.withFetchWord 16 0x80FF) (fun t =>
    t.rxResult == .ok (.cmd1 0xFF#8) && t.hdr == 0x0001FF#24) = true := by decide
/-- RX-4. -/
theorem test_unrecognized_delivered : stepsTo (State.reset.withFetchWord 16 0x8042) (fun t =>
    t.rxResult == .ok (.cmd1 0x42#8) && t.hdr == 0x000085#24) = true := by decide
/-- RX-5. -/
theorem test_kbd_delivered : stepsTo (State.reset.withFetchWord 24 0x800513) (fun t =>
    t.rxResult == .ok (.kbd 0x05#8) && t.hdr == 0x001305#24 && t.nbits == 17) = true := by decide
/-- RX-10: without the stop bit the last LED bit is the frame's last. -/
theorem test_kbd_delivered_no_stop :
    stepsTo ({ State.reset with cfg := ex1n }.withFetchWord 16 0x0513) (fun t =>
      t.rxResult == .ok (.kbd 0x05#8) && t.nbits == 16) = true := by decide
/-- RX-6. -/
theorem test_blockRead_delivered : stepsTo (State.reset.withFetchWord 24 0x018002) (fun t =>
    t.rxResult == .ok (.blockRead 0x8001#16) && t.hdr == 0x028001#24 && t.nbits == 25) = true := by
  decide
/-- RX-7. -/
theorem test_blockWrite_delivered : stepsTo (State.reset.withFetchWord 32 0x011BC003) (fun t =>
    t.rxResult == .ok (.blockWrite 0xC01B#16 ((Vector.replicate 32 0x00#8).set 0 0x01#8))
      && t.hdr == 0x03C01B#24 && t.nbits == 281) = true := by decide +kernel
/-- RX-13's last bit: without the stop bit it is bit 0 of data byte 31. -/
theorem test_blockWrite_last_data_bit :
    stepsTo { start high with
        cfg := ex1n, fsm := .rxSample, tBase := 10, now := 12, nbits := 279, need := some 280
        rxOp := 0x03#8, hdr := 0x030040#24, data := (Vector.replicate 32 0x11#8).set 31 0x08#8 }
      (fun t => t.rxResult == .ok (.blockWrite 0x0040#16 (Vector.replicate 32 0x11#8))) = true := by
  decide +kernel
/-- RT-1: the 300th low read of phase A, at tick 302. -/
theorem test_timeout_wait_high :
    stepsTo { start low with fsm := .rxWaitHigh, nbits := 1, waitN := 299, tPhase := 2, now := 302 }
      (fun t => t.rxResult == .err ⟨.waitHigh, 1⟩ && t.fsm == .handoff && !t.devLow) = true := by decide
/-- RT-3: the 300th high read of phase B. -/
theorem test_timeout_wait_low : stepsTo (waiting .rxWaitLow 299 high)
    (fun t => t.rxResult == .err ⟨.waitLow, 8⟩ && t.fsm == .handoff) = true := by decide
/-- TX-1: the request at tick 40 drives the first symbol in the same tick (start delay 0). -/
theorem test_transmit_accepted :
    stepsTo (handedOff { consoleLow := false, dispatcher := [.transmit identifyFrame] }) (fun t =>
      t.fsm == .tx && t.devLow && t.rxResult == .none && t.tUntil == 43
        && t.txProg == [false, false, false, false, false, true, false, true]
          ++ List.replicate 15 false ++ [true]) = true := by decide +kernel
/-- TX-R1. -/
theorem test_transmit_refused_in_idle :
    stepsTo (start { consoleLow := false, dispatcher := [.transmit [⟨1, 8⟩]] }) (fun t =>
      t.refused && t.fsm == .idle && !t.devLow) = true := by decide
/-- R112 and R113 with a done delay of 0: the stop pulse ends, DONE_WAIT begins and is over (R44), and the
transmission is complete. -/
theorem test_stop_then_complete : stepsTo (sending 2) (fun t =>
    t.txPc == .stop && t.fsm == .idle && !t.devLow && t.tSym == 50) = true := by decide
/-- CT-1: the release comes first, then the held mask takes effect. -/
theorem test_release_then_held_mask :
    stepsTo { handedOff { consoleLow := false, dispatcher := [.release] } with maskHold := .untilIdle }
      (fun t => t.fsm == .idle && !t.irqEnable && t.maskHold == .none && t.rxResult == .none)
        = true := by decide
/-- CT-2 and CT-3: a mask with an edge pending, by the draw. -/
theorem test_mask_draws (s : State)
    (h : s = { start { consoleLow := true, flush := [.mask] } with
      edgePending := true, entryDelay := 2, tEdgePending := 50, now := 51 }) :
    stepsTo { s with env := { s.env with draws := [0] } } (fun t => !t.irqEnable && !t.edgePending) = true
    ∧ stepsTo { s with env := { s.env with draws := [1] } }
        (fun t => t.irqEnable && t.edgePending && t.maskHold == .untilClear) = true := by
  subst h; decide
/-- CT-4: an unmask re-bases a latched edge. -/
theorem test_unmask_rebases :
    stepsTo { start { consoleLow := false, flush := [.unmask] } with
        cfg := { ex1L with entryLatencyMax := 2 }, irqEnable := false, edgePending := true
        entryDelay := 2, tEdgePending := 50, now := 300 }
      (fun t => t.irqEnable && t.tEdgePending == 300 && t.fsm == .idle) = true := by decide
/-- R151. -/
theorem test_reset_releases :
    stepsTo { sending 0 with env := { Env.unlisted with
        inputs := [{ consoleLow := true, reset := true }], draws := [0] } }
      (fun t => !t.devLow && t.fsm == .idle && t.now == 0 && !t.irqEnable) = true := by decide

/-! ## Every statement's hypotheses are met somewhere -/

theorem witness_DecodeOfEncodeReturnsTheInstruction :
    ∀ i ∈ [Instr.identify, .poll, .blockRead 0xFFFF#16, .blockWrite 0x8000#16 (Vector.replicate 32 0xFF#8),
      .kbdStatus 0x80#8, .identifyFF, .unrecognized 0xFE#8], i.wf = true := by decide
theorem witness_DecodedBitsAreTheEncoding : decode false
    [false, false, false, true, false, false, true, true,
     true, false, false, false, false, false, false, false, true]
      = .ok (.kbdStatus 0x80#8, [true]) := by decide
theorem witness_EveryCommandByteDecodes :
    frameNeed true 0x03#8 ≤ 8 + (List.replicate 273 false).length
    ∧ frameNeed false 0x42#8 ≤ 8 + [true].length := by decide +kernel
theorem witness_FrameLengthsByCommandByte :
    (0x14#8 ≠ 0x02#8 ∧ 0x14#8 ≠ 0x03#8 ∧ 0x14#8 ≠ 0x13#8) := by decide
theorem witness_SingleByteCommandsComplete : (Instr.unrecognized 0x04#8).wf = true := by decide
theorem witness_CommandsLeaveAllElse :
    exec .poll (start high) = .next (completeCommand 0x01#8 (.cmd1 0x01#8) (start high)) := rfl
theorem witness_StepRunsTheFetchedInstruction (s : State) (h : s = State.reset.withFetchWord 8 0x01) :
    configProblem s.cfg = none ∧ s.env.input.reset = false ∧ sampleDue (settle s) = true
    ∧ (rxTake (settle s).line (settle s)).frameWhole = true
    ∧ (rxTake (settle s).line (settle s)).fetched = .poll := by subst h; decide +kernel
theorem witness_ReceivedBitsSpellTheInstruction : (Instr.blockRead 0x1234#16).wf = true := by decide
theorem witness_LoadedBitsAreTheBitsReceived :
    ∀ bits ∈ [List.replicate 6 false ++ [true, false] ++ List.replicate 16 true, [true, false]],
      9 ≤ bits.length → bits.length ≤ (formatOf (bitField bits 0 8)).bodyBits := by decide
theorem witness_LastBitDeliversTheFrame :
    configProblem Config.ex1 = none ∧ configProblem ex1n = none
    ∧ (Instr.kbdStatus 0x05#8).wf = true := by decide
/-- One state for each clause, the last for both ends of its range. -/
theorem witness_BitsAreStoredMsbFirst :
    (∃ s : State, s.need = none ∧ s.nbits + 1 < 9)
    ∧ (∃ s : State, s.need = none ∧ s.nbits + 1 = 9)
    ∧ (∃ s : State, s.need = some 17 ∧ hasStop s.cfg.extStop s.rxOp = true ∧ s.nbits + 1 = 17)
    ∧ (∃ s : State, s.need = some 24 ∧ hasStop s.cfg.extStop s.rxOp = false ∧ s.nbits + 1 = 24)
    ∧ (∃ s : State, s.need = some 281 ∧ s.nbits + 1 ≠ 281 ∧ s.nbits + 1 = 25)
    ∧ (∃ s : State, s.need = some 281 ∧ s.nbits + 1 ≠ 281 ∧ s.nbits + 1 = 280) :=
  ⟨⟨{ start high with nbits := 7 }, by decide⟩, ⟨{ start high with nbits := 8 }, by decide⟩,
    ⟨{ start high with need := some 17, rxOp := 0x13#8, nbits := 16 }, by decide⟩,
    ⟨{ start high with cfg := ex1n, need := some 24, rxOp := 0x02#8, nbits := 23 }, by decide⟩,
    ⟨{ start high with need := some 281, rxOp := 0x03#8, nbits := 24 }, by decide⟩,
    ⟨{ start high with need := some 281, rxOp := 0x03#8, nbits := 279 }, by decide⟩⟩
theorem witness_ReceiveStartsWhenDue :
    ∀ d ∈ [0, 2], ∃ s : State, configProblem s.cfg = none ∧ s.env.input.reset = false
      ∧ s.env.input.flush = [] ∧ s.maskHold = .none ∧ s.fsm = .idle ∧ s.irqEnable = true
      ∧ s.edgePending = true ∧ s.now = s.tEdgePending + s.entryDelay ∧ s.cfg.sampleDelay = d := by
  intro d hd
  refine ⟨{ start low with
    cfg := { Config.ex1 with sampleDelay := d }, edgePending := true, tEdgePending := 5, now := 5 }, ?_⟩
  simp only [List.mem_cons, List.not_mem_nil, or_false] at hd
  rcases hd with rfl | rfl <;> decide
theorem witness_SampleTakesTheLineLevel (s : State)
    (h : s = { start low with fsm := .rxSample, tBase := 10, now := 12, nbits := 3 }) :
    configProblem s.cfg = none ∧ s.env.input.reset = false ∧ s.fsm = .rxSample
    ∧ s.now = s.tBase + s.cfg.sampleDelay ∧ (rxTake s.line s).frameWhole = false := by
  subst h; decide
/-- A high read, a counted low read and the budget's last low read. -/
theorem witness_PhaseAReads : ∀ p ∈ [(0, high), (0, low), (299, low)],
    configProblem (waiting .rxWaitHigh p.1 p.2).cfg = none
    ∧ (waiting .rxWaitHigh p.1 p.2).env.input.reset = false
    ∧ (waiting .rxWaitHigh p.1 p.2).now = (waiting .rxWaitHigh p.1 p.2).tPhase
        + ((waiting .rxWaitHigh p.1 p.2).waitN + 1) * (waiting .rxWaitHigh p.1 p.2).cfg.pollTicks
    ∧ (waiting .rxWaitHigh p.1 p.2).line = !p.2.consoleLow := by decide
/-- A low read, a counted high read and the budget's last high read. -/
theorem witness_PhaseBReads : ∀ p ∈ [(0, low), (0, high), (299, high)],
    configProblem (waiting .rxWaitLow p.1 p.2).cfg = none
    ∧ (waiting .rxWaitLow p.1 p.2).env.input.reset = false
    ∧ (waiting .rxWaitLow p.1 p.2).now = (waiting .rxWaitLow p.1 p.2).tPhase
        + ((waiting .rxWaitLow p.1 p.2).waitN + 1) * (waiting .rxWaitLow p.1 p.2).cfg.pollTicks
    ∧ (waiting .rxWaitLow p.1 p.2).line = !p.2.consoleLow := by decide
/-- With a sample delay of 0: the 9th bit of a KBD_STATUS frame is not its last, of another it is. -/
theorem witness_PhaseBReads_sampled_at_once : ∀ p ∈ [(0x000013#24, false), (0x000042#24, true)],
    ∃ s : State, configProblem s.cfg = none ∧ s.env.input.reset = false ∧ s.fsm = .rxWaitLow
      ∧ s.now = s.tPhase + (s.waitN + 1) * s.cfg.pollTicks ∧ s.line = false ∧ s.cfg.sampleDelay = 0
      ∧ (rxTake false s).frameWhole = p.2 := by
  intro p hp
  refine ⟨{ waiting .rxWaitLow 0 low with cfg := { Config.ex1 with sampleDelay := 0 }, hdr := p.1 }, ?_⟩
  simp only [List.mem_cons, List.not_mem_nil, or_false] at hp
  rcases hp with rfl | rfl <;> decide +kernel
theorem witness_LineIsReadOnlyWhenDue (cfg : Config) (hc : cfg = Config.ex1 ∨ cfg = ex1L) (s : State)
    (h : s = { waiting .rxWaitLow 0 low with cfg := cfg, now := 30 }) :
    configProblem s.cfg = none ∧ s.fsm ≠ .idle ∧ s.fsm ≠ .tx
    ∧ (s.cfg.staleEdge = .discard ∨ s.cfg.staleEdge = .latch)
    ∧ low.reset = false ∧ (s.fsm = .handoff → low.dispatcher = [])
    ∧ (s.fsm = .rxSample → s.now ≠ s.tBase + s.cfg.sampleDelay)
    ∧ (s.fsm = .rxWaitHigh ∨ s.fsm = .rxWaitLow →
        s.now ≠ s.tPhase + (s.waitN + 1) * s.cfg.pollTicks) := by
  rcases hc with rfl | rfl <;> subst h <;> decide

/-- A receive whose first edge was detected at tick 0, with `n` listed inputs. -/
def receiving (n : Nat) : State :=
  { start high with fsm := .rxSample, env := { Env.unlisted with inputs := List.replicate n high } }

theorem receiving_inv (n : Nat) : Inv (receiving n) where
  drive := by simp [DriveInv, receiving, start, State.reset, State.resetWith]
  tx := by constructor <;> simp [receiving, start, State.reset, State.resetWith]
  rx := by constructor <;> simp [receiving, start, State.reset, State.resetWith, inFrame]
  result := by constructor <;> simp [receiving, start, State.reset, State.resetWith]
  edge := by constructor <;> simp [receiving, start, State.reset, State.resetWith]

/-- The second and third clause. -/
theorem witness_EveryReceiveEnds (bound : Nat) (hb : bound = 168562) :
    configProblem (receiving (bound + 1)).cfg = none ∧ Inv (receiving (bound + 1))
    ∧ (receiving (bound + 1)).fsm = .rxSample ∧ (receiving (bound + 1)).nbits = 0
    ∧ bound = 281 * (receiving (bound + 1)).cfg.sampleDelay + 280 * (2 *
        ((receiving (bound + 1)).cfg.waitBudget * (receiving (bound + 1)).cfg.pollTicks))
    ∧ listedNoReset (bound + 1) (receiving (bound + 1)) := by
  refine ⟨by show configProblem Config.ex1 = none; decide, receiving_inv _, rfl, rfl, ?_,
    ?_, ?_⟩
  · show bound = 281 * Config.ex1.sampleDelay
      + 280 * (2 * (Config.ex1.waitBudget * Config.ex1.pollTicks))
    simp [hb, Config.ex1, Config.nominal]
  · simp [receiving]
  · intro x hx
    have : x = high := List.eq_of_mem_replicate (List.mem_of_mem_take hx)
    rw [this]; rfl

/-- An armed machine whose listed inputs begin with a falling edge, with a sample delay of `d`. -/
def edgeNow (d n : Nat) : State :=
  { start low with
    cfg := { Config.ex1 with sampleDelay := d }
    env := { Env.unlisted with inputs := low :: List.replicate n high, draws := [0] } }

theorem edgeNow_inv (d n : Nat) : Inv (edgeNow d n) where
  drive := by simp [DriveInv, edgeNow, start, State.reset, State.resetWith]
  tx := by constructor <;> simp [edgeNow, start, State.reset, State.resetWith]
  rx := by constructor <;> simp [edgeNow, start, State.reset, State.resetWith]
  result := by constructor <;> simp [edgeNow, start, State.reset, State.resetWith]
  edge := by constructor <;> simp [edgeNow, start, State.reset, State.resetWith]

/-- The first clause, with a sample delay of 0 and of 2. -/
theorem witness_EveryReceiveEnds_from_start (d bound : Nat) (hd : d = 0 ∨ d = 2)
    (hb : bound = 281 * d + 168000) :
    configProblem (edgeNow d bound).cfg = none ∧ Inv (edgeNow d bound)
    ∧ bound = 281 * (edgeNow d bound).cfg.sampleDelay + 280 * (2 *
        ((edgeNow d bound).cfg.waitBudget * (edgeNow d bound).cfg.pollTicks))
    ∧ listedNoReset (bound + 1) (edgeNow d bound)
    ∧ startDue (settle (edgeNow d bound)) = true := by
  refine ⟨?_, edgeNow_inv _ _, ?_, ⟨?_, ?_⟩, rfl⟩
  · show configProblem { Config.ex1 with sampleDelay := d } = none
    rcases hd with rfl | rfl <;> decide
  · show bound = 281 * d + 280 * (2 * (Config.ex1.waitBudget * Config.ex1.pollTicks))
    simp [hb, Config.ex1, Config.nominal]
  · simp [edgeNow]
  · intro x hx
    rcases List.mem_cons.mp (List.mem_of_mem_take hx) with rfl | h
    · rfl
    · rw [List.eq_of_mem_replicate h]; rfl

/-- The nominal cells of R68 in EX1. -/
def nominalLow (b : Bit) : Tick := if b then 1 else 3
def nominalHigh (b : Bit) : Tick := if b then 3 else 1

theorem witness_WellTimedFrameIsReceivedAsSent (s : State)
    (h : s = { start high with env := { Env.unlisted with
      inputs := consoleWave nominalLow nominalHigh (encode true true .poll) ++ [] } }) :
    configProblem s.cfg = none ∧ Instr.poll.wf = true
    ∧ WellTimed s.cfg nominalLow nominalHigh (max s.cfg.entryLatencyMax (s.cfg.pollTicks - 1))
    ∧ s.fsm = .idle ∧ s.irqEnable = true ∧ s.edgePending = false ∧ s.maskHold = .none
    ∧ s.prevLevel = true ∧ s.devLow = false
    ∧ s.env.inputs
        = consoleWave nominalLow nominalHigh (encode s.cfg.extStop true .poll) ++ [] := by
  subst h
  refine ⟨by decide, rfl, ?_, rfl, rfl, rfl, rfl, rfl, rfl, rfl⟩
  constructor <;> decide

/-- The last read of phase B after bit 1: the next step posts a timeout. -/
def truncated : State :=
  { receiving 1 with fsm := .rxWaitLow, nbits := 1, waitN := 299, tPhase := 3, now := 303 }

theorem truncated_inv : Inv truncated where
  drive := by simp [DriveInv, truncated, receiving, start, State.reset, State.resetWith]
  tx := by constructor <;> simp [truncated, receiving, start, State.reset, State.resetWith]
  rx := by
    constructor <;>
      simp [truncated, receiving, start, State.reset, State.resetWith, inFrame, Config.ex1, Config.nominal]
  result := by constructor <;> simp [truncated, receiving, start, State.reset, State.resetWith]
  edge := by constructor <;> simp [truncated, receiving, start, State.reset, State.resetWith]

theorem witness_TimeoutTellsTheBitsSampled :
    Inv truncated ∧ stepsTo truncated (fun t => t.rxResult == .err ⟨.waitLow, 1⟩) = true
    ∧ truncated.rxResult ≠ .err ⟨.waitLow, 1⟩ := ⟨truncated_inv, by decide, by decide⟩
theorem witness_ResultsArePostedWhole :
    Inv truncated ∧ stepsTo truncated (fun t => t.rxResult != .none) = true :=
  ⟨truncated_inv, by decide⟩
theorem witness_EveryStepKeepsTheInvariant :
    Inv truncated ∧ stepsTo truncated (fun _ => true) = true := ⟨truncated_inv, by decide⟩
theorem witness_HandoffWaitsForTheDispatcher (s : State) (h : s = handedOff high) :
    configProblem s.cfg = none ∧ s.env.input.reset = false ∧ s.env.input.dispatcher = []
    ∧ s.fsm = .handoff := by subst h; decide
theorem witness_ReleaseReturnsToIdle :
    (handedOff high).fsm = .handoff ∧ (handedOff high).irqEnable = true
    ∧ { handedOff high with edgePending := true }.edgePending = true
    ∧ (handedOff high).edgePending = false ∧ (start high).fsm ≠ .handoff := by decide
theorem witness_RefusalMarkIsKept : { start high with refused := true }.env.input.reset = false
    ∧ stepsTo { start high with refused := true } (fun _ => true) = true := by decide
theorem witness_TransmitTakesTheWholeFrame : (handedOff high).fsm = .handoff
    ∧ (handedOff high).rxResult = .ok (.cmd1 0x00#8)
    ∧ frameValid (handedOff high).cfg identifyFrame = true := by decide
theorem witness_FrameValidationConditions : frameValid Config.ex1 identifyFrame = true
    ∧ ¬ 1 ≤ ([] : ProtocolFrame).length := by decide
theorem witness_MeaninglessTransmitsAreRefused : (start high).fsm ≠ .handoff
    ∧ { handedOff high with rxResult := .err ⟨.waitLow, 8⟩ }.rxResult = .err ⟨.waitLow, 8⟩
    ∧ (start high).rxResult = .none ∧ frameValid Config.ex1 [] = false := by decide
theorem witness_WireBitsFollowTheSegments : 0 < (wireBits identifyFrame).length := by decide
/-- The serializer's three statements: each phase of each symbol, at its end. -/
theorem witness_SymbolsStartLow : (∀ y ∈ [TxSub.startWait, .high], ∀ k ∈ [0, 1],
    { sending k with txSub := y }.fsm = .tx ∧ { sending k with txSub := y }.txPc = .bit k
    ∧ { sending k with txSub := y }.now = { sending k with txSub := y }.tUntil)
    ∧ (sending 0).txProg[0]? = some false ∧ (sending 0).txProg[1]? = some true
    ∧ 2 = (sending 1).txProg.length := by decide
theorem witness_DataBitsAreReleased : (sending 0).fsm = .tx ∧ (sending 0).now = (sending 0).tUntil
    ∧ (sending 0).txSub = .low ∧ (sending 0).txProg[0]? = some false
    ∧ (sending 1).txPc = .bit 1 ∧ (sending 1).txProg[1]? = some true := by decide
theorem witness_StopSymbolThenCompletion : (sending 2).txPc = .bit 2 ∧ (sending 2).txSub = .low
    ∧ 2 = (sending 2).txProg.length ∧ (sending 2).irqEnable = true
    ∧ { sending 2 with txSub := .doneWait, edgePending := true }.edgePending = true
    ∧ (sending 2).edgePending = false := by decide

/-- A hand-off with a one-bit response requested and inputs listed for the whole transmission. -/
def responding : State :=
  { handedOff high with env := { Env.unlisted with
      inputs := { consoleLow := false, dispatcher := [.transmit [⟨1, 1⟩]] } :: List.replicate 6 high } }

theorem responding_inv : Inv responding where
  drive := by simp [DriveInv, responding, handedOff, start, State.reset, State.resetWith]
  tx := by constructor <;> simp [responding, handedOff, start, State.reset, State.resetWith]
  rx := by
    constructor <;> simp [responding, handedOff, start, State.reset, State.resetWith, frameNeed,
      formatOf, FrameFormat.bodyBits, hasStop, isExtended]
  result := by constructor <;> simp [responding, handedOff, start, State.reset, State.resetWith]
  edge := by constructor <;> simp [responding, handedOff, start, State.reset, State.resetWith]

theorem witness_TransmissionFollowsTheClosedForm :
    configProblem responding.cfg = none ∧ Inv responding ∧ responding.fsm = .handoff
    ∧ responding.rxResult = .ok (.cmd1 0x00#8) ∧ frameValid responding.cfg [⟨1, 1⟩] = true
    ∧ responding.env.inputs
        = { consoleLow := false, dispatcher := [.transmit [⟨1, 1⟩]] } :: List.replicate 6 high
    ∧ 6 = responding.cfg.txStartMax
        + (deviceWave responding.cfg 0 0 (wireBits [⟨1, 1⟩])).length + responding.cfg.txDoneMax
    ∧ listedNoReset 7 responding := by
  refine ⟨by decide, responding_inv, rfl, rfl, by decide, rfl, by decide, ?_⟩
  unfold listedNoReset; decide
theorem witness_NothingDisturbsATransmission : configProblem (sending 0).cfg = none
    ∧ (sending 0).fsm = .tx ∧ high.reset = false ∧ low.reset = false := by decide
theorem witness_OnlyARequestTransmits : responding.fsm ≠ .tx
    ∧ stepsTo responding (fun t => t.fsm == .tx) = true := by decide
theorem witness_DeviceDrivesOnlySymbols :
    ((sending 0).devLow = true → (sending 0).fsm = .tx ∧ (sending 0).txSub = .low)
    ∧ stepsTo (sending 0) (fun _ => true) = true := by decide
/-- An armed falling edge; `start` has the line released before. -/
theorem witness_ArmedEdgeStartsAReceive (s : State) (h : s = start low) :
    configProblem s.cfg = none ∧ s.env.input.reset = false ∧ s.env.input.flush = []
    ∧ s.maskHold = .none ∧ s.fsm = .idle ∧ s.irqEnable = true ∧ s.edgePending = false
    ∧ s.prevLevel = true ∧ s.line = false := by subst h; decide
theorem witness_StaleEdgesAreDiscardedOrLatched :
    (handedOff low).fall = true ∧ (handedOff low).armed = false
    ∧ (handedOff low).cfg.staleEdge = .discard ∧ { handedOff low with cfg := ex1L }.cfg.staleEdge = .latch
    ∧ { handedOff low with cfg := ex1L }.edgePending = false
    ∧ { handedOff low with edgePending := true }.edgePending = true := by decide
theorem witness_MaskTakesEffectOrHolds : (start high).maskHold = .none ∧ (start high).irqEnable = true
    ∧ (start high).edgePending = false ∧ (handedOff high).fsm ≠ .idle
    ∧ { start high with edgePending := true }.edgePending = true
    ∧ { start high with irqEnable := false }.irqEnable = false := by decide
/-- A mask held with an edge pending or not, in `IDLE`, in `HANDOFF`, and in CT-1's tick of the release. -/
theorem witness_HeldMaskWaitsThenTakesEffect : ∀ p ∈ [(MaskHold.untilIdle, false), (.untilIdle, true),
    (.untilClear, false), (.untilClear, true)], ∀ s ∈ [start high, handedOff high,
      handedOff { consoleLow := false, dispatcher := [.release] }],
    configProblem s.cfg = none
    ∧ { s with maskHold := p.1, edgePending := p.2 }.env.input.reset = false
    ∧ { s with maskHold := p.1, edgePending := p.2 }.env.input.flush = []
    ∧ { s with maskHold := p.1, edgePending := p.2 }.maskHold ≠ .none
    ∧ { s with maskHold := p.1, edgePending := p.2 }.irqEnable = true := by decide
theorem witness_HeldMask_idle_after_release : (({ handedOff { consoleLow := false, dispatcher := [.release] }
    with maskHold := .untilIdle }).env.input.dispatcher.foldl dispatcherRequest
      (handedOff { consoleLow := false, dispatcher := [.release] })).fsm = .idle := by decide
theorem witness_UnmaskEnables : { start high with irqEnable := false }.irqEnable = false
    ∧ { start high with irqEnable := false, edgePending := true }.edgePending = true
    ∧ (start high).irqEnable = true := by decide
theorem witness_NothingStartsWhileMasked (s : State) (h : s = { start low with irqEnable := false }) :
    configProblem s.cfg = none ∧ s.fsm = .idle ∧ s.irqEnable = false ∧ s.devLow = false
    ∧ listedNoReset 1 s ∧ (∀ x ∈ s.env.inputs.take 1, FlushRequest.unmask ∉ x.flush) := by
  subst h
  refine ⟨by decide, rfl, rfl, rfl, ?_, by decide⟩
  unfold listedNoReset; decide
theorem witness_MaskAndEdgeInOneTickLeaveTheEdgeStale (s : State)
    (h : s = start { consoleLow := true, flush := [.mask] }) :
    configProblem s.cfg = none ∧ s.env.input.reset = false ∧ s.env.input.flush = [.mask]
    ∧ s.maskHold = .none ∧ s.fsm = .idle ∧ s.irqEnable = true ∧ s.edgePending = false
    ∧ s.prevLevel = true ∧ s.line = false ∧ { s with cfg := ex1L }.cfg.staleEdge = .latch
    ∧ s.cfg.staleEdge = .discard := by subst h; decide
theorem witness_FirstPulseIsSeenByTheEdgeDetector :
    configProblem responding.cfg = none ∧ responding.env.input.reset = false
    ∧ responding.env.input.dispatcher = [.transmit [⟨1, 1⟩]] ∧ responding.env.input.flush = []
    ∧ responding.fsm = .handoff ∧ responding.rxResult = .ok (.cmd1 0x00#8)
    ∧ frameValid responding.cfg [⟨1, 1⟩] = true ∧ responding.cfg.txStartMax = 0
    ∧ responding.prevLevel = true ∧ responding.edgePending = false := by decide
theorem witness_ResetValues : State.reset = State.resetWith Config.ex1 true (Vector.replicate 32 0#8) := rfl
theorem witness_NarrowCountersAreRefused (s : State)
    (h : s = { State.reset with cfg := { Config.ex1 with tickWidth := 1 } }) :
    step s = .refused .counterTooNarrow := by subst h; rfl
theorem witness_ResetAbandonsTheTransaction (s : State)
    (h : s = { sending 0 with env := { Env.unlisted with
      inputs := [{ consoleLow := true, reset := true }], draws := [1] } }) :
    configProblem s.cfg = none ∧ s.env.input.reset = true ∧ s.env.draws = [1] := by subst h; decide
theorem witness_ReceiveRulesAreExhausted : configProblem Config.ex1 = none
    ∧ ∃ t, receive (start high) = .next t := ⟨by decide, _, rfl⟩
theorem witness_EveryStepGoesOn : configProblem (start high).cfg = none
    ∧ (start high).env.input.reset = false := by decide
theorem witness_ElapsedTimeIsExact :
    (5 : Tick) ≤ 4294967300 ∧ 4294967300 - 5 < 2 ^ Config.ex1.tickWidth := by decide

end Sys2Proof.Tests
end

section
/-! The frame of one tick (R24, R25, R132): steps 0 to 4 leave the parameters, the time and the listed
inputs alone, whatever rules they apply. Only step 5, `advanceTime`, moves the time. -/

namespace Sys2Proof.Machine

/-- `t` is a later point of the tick that `s` stands in: no rule writes the parameters (R25), time moves
only at the end of a tick (R132 step 5), and a draw takes none of the inputs. -/
structure SameTick (s t : State) : Prop where
  cfg : t.cfg = s.cfg
  now : t.now = s.now
  inputs : t.env.inputs = s.env.inputs
  inputIx : t.env.inputIx = s.env.inputIx

namespace SameTick

@[refl] theorem refl (s : State) : SameTick s s := ⟨rfl, rfl, rfl, rfl⟩

@[trans] theorem trans {s t u : State} (h : SameTick s t) (g : SameTick t u) : SameTick s u :=
  ⟨g.cfg.trans h.cfg, g.now.trans h.now, g.inputs.trans h.inputs, g.inputIx.trans h.inputIx⟩

/-- An operation that stays in the tick can be repeated over any list of requests. -/
theorem foldl {α : Type} {f : State → α → State} (hf : ∀ s a, SameTick s (f s a)) (l : List α)
    (s : State) : SameTick s (l.foldl f s) := by
  induction l generalizing s with
  | nil => exact refl s
  | cons a l ih => exact (hf s a).trans (ih (f s a))

end SameTick

/-! ## Step 0: requests -/

theorem rearm_sameTick (s : State) : SameTick s (rearm s) := by
  rw [rearm_frame]
  exact ⟨rfl, rfl, rfl, rfl⟩

theorem transmit_sameTick (f : ProtocolFrame) (s : State) : SameTick s (transmit f s) := by
  rcases transmit_cases f s with ⟨-, accepted⟩ | ⟨-, refused⟩
  · rw [accepted]
    exact ⟨rfl, rfl, draw_inputs s.env, draw_inputIx s.env⟩
  · rw [refused]
    exact ⟨rfl, rfl, rfl, rfl⟩

theorem release_sameTick (s : State) : SameTick s (release s) := by
  rcases release_cases s with ⟨-, accepted⟩ | ⟨-, refused⟩
  · rw [accepted]
    exact .trans (t := { s with rxResult := .none, fsm := .idle }) ⟨rfl, rfl, rfl, rfl⟩
      (rearm_sameTick _)
  · rw [refused]
    exact ⟨rfl, rfl, rfl, rfl⟩

theorem dispatcherRequest_sameTick (s : State) (r : DispatcherRequest) :
    SameTick s (dispatcherRequest s r) := by
  cases r with
  | transmit f => exact transmit_sameTick f s
  | release => exact release_sameTick s

/-- Nothing a flush request may write belongs to the frame of the tick. -/
theorem SameTick.of_flushWrites {s t : State} (h : flushWrites s t) : SameTick s t := by
  obtain ⟨_, _, _, _, _, hinputs, hinputIx, rfl⟩ := h
  exact ⟨rfl, rfl, hinputs, hinputIx⟩

theorem applyRequests_sameTick (inp : TickInput) (s : State) : SameTick s (applyRequests inp s) :=
  (SameTick.foldl dispatcherRequest_sameTick inp.dispatcher s).trans <|
    .of_flushWrites (flushWrites_trans (maskResume_writes _) (flushRequests_writes inp.flush _))

/-! ## Steps 1 to 3: serializer, line, edge detector -/

theorem endLow_sameTick (k : Nat) (s : State) : SameTick s (endLow k s) := by
  unfold endLow
  split
  · exact ⟨rfl, rfl, rfl, rfl⟩
  · exact ⟨rfl, rfl, draw_inputs s.env, draw_inputIx s.env⟩

theorem txComplete_sameTick (s : State) : SameTick s (txComplete s) := by
  constructor <;> simp

theorem txRule_sameTick {s t : State} (h : txRule s = some t) : SameTick s t := by
  rcases txRule_cases s with
    none_holds | ⟨-, -, k, -, ⟨-, starts⟩ | ⟨-, ends_low⟩ | ⟨-, ends_high⟩ | ⟨-, completes⟩⟩
  · rw [none_holds] at h
    cases h
  · obtain rfl : beginSymbol k s = t := Option.some.inj (starts.symm.trans h)
    exact ⟨rfl, rfl, rfl, rfl⟩
  · obtain rfl : endLow k s = t := Option.some.inj (ends_low.symm.trans h)
    exact endLow_sameTick k s
  · obtain rfl : beginSymbol (k + 1) s = t := Option.some.inj (ends_high.symm.trans h)
    exact ⟨rfl, rfl, rfl, rfl⟩
  · obtain rfl : txComplete s = t := Option.some.inj (completes.symm.trans h)
    exact txComplete_sameTick s

theorem txRepeat_sameTick (fuel : Nat) (s : State) : SameTick s (txRepeat fuel s) := by
  induction fuel generalizing s with
  | zero => exact .refl s
  | succ fuel ih =>
    unfold txRepeat
    split
    · exact .refl s
    · next t h => exact (txRule_sameTick h).trans (ih t)

theorem latchEdge_sameTick (s : State) : SameTick s (latchEdge s) :=
  ⟨rfl, rfl, draw_inputs s.env, draw_inputIx s.env⟩

theorem fallingEdge_sameTick (s : State) : SameTick s (fallingEdge s) := by
  rcases fallingEdge_cases s with ⟨-, -, latched⟩ | ⟨-, ignored⟩
  · rw [latched]
    exact latchEdge_sameTick s
  · rw [ignored]

theorem detectEdge_sameTick (s : State) : SameTick s (detectEdge s) := by
  unfold detectEdge
  split
  · exact (fallingEdge_sameTick s).trans ⟨rfl, rfl, rfl, rfl⟩
  · exact ⟨rfl, rfl, rfl, rfl⟩

theorem settle_sameTick (s : State) : SameTick s (settle s) :=
  (applyRequests_sameTick _ s).trans ((txRepeat_sameTick 2 _).trans (detectEdge_sameTick _))

/-! ## Step 4: the receive path -/

theorem rxStore_sameTick (b : Bit) (s : State) : SameTick s (rxStore b s) := by
  rcases rxStore_cases b s with h | h | h <;> rw [h]
  all_goals exact ⟨rfl, rfl, rfl, rfl⟩

theorem rxTake_sameTick (b : Bit) (s : State) : SameTick s (rxTake b s) := by
  have stored : SameTick s (rxStore b { s with nbits := s.nbits + 1 }) :=
    .trans (t := { s with nbits := s.nbits + 1 }) ⟨rfl, rfl, rfl, rfl⟩ (rxStore_sameTick b _)
  unfold rxTake
  dsimp only
  split
  · exact stored.trans ⟨rfl, rfl, rfl, rfl⟩
  · exact stored

theorem rxSample_sameTick {s t : State} (h : rxSample s = .next t) : SameTick s t := by
  rcases rxSample_cases s with ⟨-, delivers⟩ | ⟨-, goes_on⟩
  · rw [delivers] at h
    cases h
    exact (rxTake_sameTick s.line s).trans ⟨rfl, rfl, rfl, rfl⟩
  · rw [goes_on] at h
    cases h
    exact (rxTake_sameTick s.line s).trans ⟨rfl, rfl, rfl, rfl⟩

theorem countRead_sameTick (phase : WaitPhase) (s : State) : SameTick s (countRead phase s) := by
  rcases countRead_cases phase s with ⟨-, h⟩ | ⟨-, h⟩ <;> rw [h]
  all_goals exact ⟨rfl, rfl, rfl, rfl⟩

theorem rxReadHigh_sameTick (s : State) : SameTick s (rxReadHigh s) := by
  unfold rxReadHigh
  split
  · exact ⟨rfl, rfl, rfl, rfl⟩
  · exact countRead_sameTick .waitHigh s

theorem rxReadLow_sameTick (s : State) : SameTick s (rxReadLow s) := by
  unfold rxReadLow
  split
  · exact countRead_sameTick .waitLow s
  · exact ⟨rfl, rfl, rfl, rfl⟩

/-- The receive rule that is due, named by the control state it belongs to (R85, R86, R89, R90). -/
theorem rxRule_some_cases {s : State} {o : Host.Outcome State Fault Refusal} (h : rxRule s = some o) :
    (s.fsm = .idle ∧ startDue s = true ∧ o = .next (rxStart s))
      ∨ (s.fsm = .rxSample ∧ sampleDue s = true ∧ o = rxSample s)
      ∨ (s.fsm = .rxWaitHigh ∧ readDue s = true ∧ o = .next (rxReadHigh s))
      ∨ (s.fsm = .rxWaitLow ∧ readDue s = true ∧ o = .next (rxReadLow s)) := by
  unfold rxRule at h
  cases hf : s.fsm <;> simp_all

theorem rxRule_sameTick {s t : State} (h : rxRule s = some (.next t)) : SameTick s t := by
  rcases rxRule_some_cases h with ⟨-, -, starts⟩ | ⟨-, -, samples⟩ | ⟨-, -, reads⟩ | ⟨-, -, reads⟩
  · cases starts
    exact ⟨rfl, rfl, rfl, rfl⟩
  · exact rxSample_sameTick samples.symm
  · cases reads
    exact rxReadHigh_sameTick s
  · cases reads
    exact rxReadLow_sameTick s

theorem rxRepeat_sameTick {fuel : Nat} {s t : State} (h : rxRepeat fuel s = .next t) :
    SameTick s t := by
  induction fuel generalizing s with
  | zero =>
    cases h
    exact .refl _
  | succ fuel ih =>
    unfold rxRepeat at h
    rcases rxRule_next s with none_due | ⟨u, due⟩
    · rw [none_due] at h
      cases h
      exact .refl _
    · rw [due] at h
      exact (rxRule_sameTick due).trans (ih h)

/-! ## The whole tick -/

/-- All of a tick but its last step stays in the tick. -/
theorem receive_settle_sameTick {s t : State} (h : receive (settle s) = .next t) : SameTick s t :=
  (settle_sameTick s).trans (rxRepeat_sameTick h)

/-- A reset keeps the parameters (R151). -/
@[simp] theorem applyReset_cfg (s : State) : (applyReset s).cfg = s.cfg := rfl

end Sys2Proof.Machine

namespace Sys2Proof.Proofs

open Sys2Proof.Machine

/-- Settles O53: of the three cases of `step_cases`, an accepted configuration rules out the refusal, a
reset keeps the parameters (R151), and every other tick advances the time after steps that leave it alone. -/
theorem everyStepGoesOn : Obligations.EveryStepGoesOn := by
  intro s accepted
  rcases step_cases s with ⟨r, problem, -⟩ | ⟨-, reset, steps⟩ | ⟨-, -, t, received, steps⟩
  · rw [accepted] at problem
    cases problem
  · exact ⟨applyReset s, steps, applyReset_cfg s, fun no_reset => by simp [reset] at no_reset⟩
  · have same : SameTick s t := receive_settle_sameTick received
    exact ⟨advanceTime t, steps, same.cfg, fun _ => congrArg (· + 1) same.now⟩

end Sys2Proof.Proofs
end

section
/-! Taking a bit, case by case (R86 to R88): the discarded stop bit, the header bits, the payload bits,
and the length decision at the 9th bit. -/

namespace Sys2Proof.Machine

/-! ## The shifts as numbers -/

theorem toNat_shiftConcat_eq {w : Nat} (x : BitVec w) (b : Bool) :
    (x.shiftConcat b).toNat = (2 * x.toNat + b.toNat) % 2 ^ w := by
  rw [BitVec.toNat_shiftConcat, Nat.shiftLeft_eq, pow_one, Nat.mul_comm]

theorem toNat_commandByte (h : Header) : (commandByte h).toNat = h.toNat / 2 % 2 ^ 8 := by
  rw [commandByte, BitVec.extractLsb'_toNat, Nat.shiftRight_eq_div_pow, pow_one]

theorem shiftData_same {j : Nat} (d : Block) (b : Bit) (h : j < 32) :
    (shiftData d j b)[j] = d[j].shiftConcat b := by
  simp [shiftData, h]

theorem shiftData_other {i j : Nat} (d : Block) (b : Bit) (hi : i < 32) (h : i ≠ j) :
    (shiftData d j b)[i] = d[i] := by
  unfold shiftData
  split
  · rw [Vector.getElem_set, if_neg h.symm]
  · rfl

/-! ## Storing -/

section
variable {b : Bit} {s : State}

@[simp] theorem rxStore_nbits : (rxStore b s).nbits = s.nbits := by
  rcases rxStore_cases b s with h | h | h <;> rw [h]

@[simp] theorem rxStore_need : (rxStore b s).need = s.need := by
  rcases rxStore_cases b s with h | h | h <;> rw [h]

/-- The stop bit of a frame that has one is discarded. -/
theorem rxStore_stopBit (whole : s.need = some s.nbits)
    (stop : hasStop s.cfg.extStop s.rxOp = true) : rxStore b s = s := by
  simp [rxStore, State.frameWhole, whole, stop]

/-- Any other bit up to the 24th shifts into the header. -/
theorem rxStore_header (body : hasStop s.cfg.extStop s.rxOp = false ∨ s.need ≠ some s.nbits)
    (early : s.nbits ≤ 24) : rxStore b s = { s with hdr := shiftHeader s.hdr b } := by
  rcases body with body | body <;> simp [rxStore, State.frameWhole, body, early]

/-- Any other bit after the 24th shifts into the payload. -/
theorem rxStore_payload (body : hasStop s.cfg.extStop s.rxOp = false ∨ s.need ≠ some s.nbits)
    (late : 24 < s.nbits) :
    rxStore b s = { s with data := shiftData s.data ((s.nbits - 25) / 8) b } := by
  rcases body with body | body <;> simp [rxStore, State.frameWhole, body, Nat.not_le.mpr late]

/-! ## Taking -/

/-- The 9th bit is stored and then decides the length. -/
theorem rxTake_ninth (undecided : s.need = none) (ninth : s.nbits + 1 = 9) :
    rxTake b s = rxClassify (rxStore b { s with nbits := s.nbits + 1 }) := by
  simp [rxTake, undecided, ninth]

/-- Any other bit is counted and stored. -/
theorem rxTake_other (h : s.need ≠ none ∨ s.nbits + 1 ≠ 9) :
    rxTake b s = rxStore b { s with nbits := s.nbits + 1 } := by
  have not_ninth : ¬(s.nbits + 1 = 9 ∧ s.need = none) := fun ⟨ninth, undecided⟩ =>
    h.elim (· undecided) (· ninth)
  simp only [rxTake, rxStore_nbits, rxStore_need, Bool.and_eq_true, beq_iff_eq, Option.isNone_iff_eq_none,
    if_neg not_ninth]

end

end Sys2Proof.Machine

namespace Sys2Proof.Proofs

open Sys2Proof.Machine

/-- Settles O15: each clause is one case of `rxTake` and then one of `rxStore`. -/
theorem bitsAreStoredMsbFirst : Obligations.BitsAreStoredMsbFirst := by
  intro b s
  refine ⟨fun undecided early => ?_, fun undecided ninth => ?_, fun n decided stop last => ?_,
    fun n decided body early => ?_, fun n decided body late inside => ?_⟩
  · refine ⟨shiftHeader s.hdr b, ?_, toNat_shiftConcat_eq _ _⟩
    rw [rxTake_other (.inr (by omega)), rxStore_header (.inr (by simp [undecided])) (by dsimp; omega)]
  · refine ⟨shiftHeader s.hdr b, commandByte (shiftHeader s.hdr b), ?_, toNat_shiftConcat_eq _ _,
      toNat_commandByte _⟩
    rw [rxTake_ninth undecided ninth, rxStore_header (.inr (by simp [undecided])) (by dsimp; omega),
      ninth]
    rfl
  · rw [rxTake_other (.inl (by simp [decided]))]
    exact rxStore_stopBit (decided.trans (congrArg some last.symm)) stop
  · refine ⟨shiftHeader s.hdr b, ?_, toNat_shiftConcat_eq _ _⟩
    rw [rxTake_other (.inl (by simp [decided]))]
    exact rxStore_header (body.imp_right fun h => by simpa [decided] using h.symm) early
  · refine ⟨shiftData s.data ((s.nbits + 1 - 25) / 8) b, ?_, fun j => ⟨fun same => ?_, fun other => ?_⟩⟩
    · rw [rxTake_other (.inl (by simp [decided]))]
      exact rxStore_payload (body.imp_right fun h => by simpa [decided] using h.symm) late
    · rw [← same]
      exact (congrArg BitVec.toNat (shiftData_same s.data b j.isLt)).trans (toNat_shiftConcat_eq _ _)
    · exact shiftData_other s.data b j.isLt other

/-- Settles O44: the line is the wired-AND of its two drivers (R27). -/
theorem lineIdleStatus : Obligations.LineIdleStatus := by
  intro s
  simp only [State.lineIdle, State.line, Bool.and_eq_true, Bool.not_eq_true', Bool.or_eq_false_iff,
    beq_iff_eq, and_assoc]

end Sys2Proof.Proofs
end

section
/-! The rules of one tick (R132) as a relation: every state change of steps 0 to 4 is a chain of single rule
applications, each a plain update of named fields under the guard it needs. What all rules keep, the
tick keeps; so each invariant is one case analysis over the rules. -/

namespace Sys2Proof.Machine

/-! ## The rules -/

/-- A request of the flush sequence, or a held mask that looks again, takes effect (R126, R127). -/
inductive FlushRule (s : State) : State → Prop
  | dropHold : FlushRule s { s with maskHold := .none }
  | holdUntilIdle (enabled : s.irqEnable = true) : FlushRule s { s with maskHold := .untilIdle }
  | holdUntilClear (enabled : s.irqEnable = true) :
      FlushRule s { s with env := s.env.draw.2, maskHold := .untilClear }
  | disable (env : Env) (pending : Bool) (idle : s.fsm = .idle) :
      FlushRule s { s with env := env, edgePending := pending, irqEnable := false, maskHold := .none }
  | enable (nonePending : s.edgePending = false) : FlushRule s { s with irqEnable := true }
  | enableRebased : FlushRule s { s with irqEnable := true, tEdgePending := s.now }

/-- A rule of the serializer (R108 to R113), in `TX` with the program counter at symbol `k`. -/
inductive SerializerRule (k : Nat) (s : State) : State → Prop
  | beginFirst (starting : s.txSub = .startWait) : SerializerRule k s (beginSymbol k s)
  | endBit (b : Bit) (symbol : s.txProg[k]? = some b) : SerializerRule k s (releaseBit b s)
  | endStop (symbol : s.txProg[k]? = none) : SerializerRule k s (releaseStop s)
  | beginNext (high : s.txSub = .high) : SerializerRule k s (beginSymbol (k + 1) s)
  | complete (te : Tick) (waiting : s.txSub = .doneWait)
      (rebased : s.irqEnable = true → s.edgePending = true → te = s.now) :
      SerializerRule k s { s with txPc := .stop, fsm := .idle, tEdgePending := te }

/-- What taking a bit does to the length decision (R88): the 9th bit makes it, any other leaves it. -/
def LengthDecision (s : State) (need : Option Nat) (op : Byte) : Prop :=
  (s.need = none ∧ s.nbits + 1 = 9 ∧ need = some (frameNeed s.cfg.extStop op))
    ∨ ((s.need ≠ none ∨ s.nbits + 1 ≠ 9) ∧ need = s.need ∧ op = s.rxOp)

/-- A rule of the receive path (R85, R86, R89, R90). The contents of the shift registers are left open. -/
inductive ReceiveRule (s : State) : State → Prop
  | start (idle : s.fsm = .idle) (enabled : s.irqEnable = true) : ReceiveRule s (rxStart s)
  | deliver (need : Option Nat) (hdr : Header) (op : Byte) (data : Block) (f : Frame)
      (sampling : s.fsm = .rxSample) (decision : LengthDecision s need op)
      (whole : need = some (s.nbits + 1)) :
      ReceiveRule s { s with
        nbits := s.nbits + 1, hdr := hdr, rxOp := op, need := some (frameNeed s.cfg.extStop op), data := data
        rxResult := .ok f, fsm := .handoff }
  | nextBit (need : Option Nat) (hdr : Header) (op : Byte) (data : Block)
      (sampling : s.fsm = .rxSample) (decision : LengthDecision s need op)
      (unfinished : need ≠ some (s.nbits + 1)) :
      ReceiveRule s { s with
        nbits := s.nbits + 1, hdr := hdr, rxOp := op, need := need, data := data
        fsm := .rxWaitHigh, waitN := 0, tPhase := s.now }
  | seeHigh (waiting : s.fsm = .rxWaitHigh) :
      ReceiveRule s { s with fsm := .rxWaitLow, waitN := 0, tPhase := s.now }
  | seeEdge (waiting : s.fsm = .rxWaitLow) :
      ReceiveRule s { s with waitN := s.waitN + 1, fsm := .rxSample, tBase := s.now }
  | readAgain (waiting : s.fsm = .rxWaitHigh ∨ s.fsm = .rxWaitLow)
      (due : s.now = s.tPhase + (s.waitN + 1) * s.cfg.pollTicks)
      (inBudget : s.waitN + 1 ≠ s.cfg.waitBudget) : ReceiveRule s { s with waitN := s.waitN + 1 }
  | timeout (phase : WaitPhase) (waiting : s.fsm = .rxWaitHigh ∨ s.fsm = .rxWaitLow) :
      ReceiveRule s { s with
        waitN := s.waitN + 1, fsm := .handoff, rxResult := .err { phase := phase, bits := s.nbits } }

/-- One rule of steps 0 to 4 of R132. -/
inductive TickRule (s : State) : State → Prop
  | refuse : TickRule s (refuseRequest s)
  | transmit (f : ProtocolFrame) (handoff : s.fsm = .handoff) (valid : frameValid s.cfg f = true) :
      TickRule s { s with
        txProg := wireBits f, txPc := .bit 0, txSub := .startWait, tSym := s.now
        tUntil := s.now + chooseUpTo s.cfg.txStartMax s.env.draw.1
        rxResult := .none, fsm := .tx, env := s.env.draw.2 }
  | release (te : Tick) (handoff : s.fsm = .handoff)
      (rebased : s.irqEnable = true → s.edgePending = true → te = s.now) :
      TickRule s { s with rxResult := .none, fsm := .idle, tEdgePending := te }
  | flush {t : State} (rule : FlushRule s t) : TickRule s t
  | serializer {k : Nat} {t : State} (tx : s.fsm = .tx) (at_ : s.txPc = .bit k)
      (rule : SerializerRule k s t) : TickRule s t
  | latch : TickRule s (latchEdge s)
  | level (b : Bit) : TickRule s { s with prevLevel := b }
  | receive {t : State} (rule : ReceiveRule s t) : TickRule s t

/-- Any number of rules, one after another. -/
abbrev TickRules : State → State → Prop := Relation.ReflTransGen TickRule

/-- What every rule keeps, any number of rules keep. -/
theorem TickRules.keep {P : State → Prop} (kept : ∀ s t, TickRule s t → P s → P t) {s t : State}
    (rules : TickRules s t) (h : P s) : P t := by
  induction rules with
  | refl => exact h
  | tail _ rule ih => exact kept _ _ rule ih

theorem TickRules.foldl {α : Type} {f : State → α → State} (hf : ∀ s a, TickRules s (f s a))
    (l : List α) (s : State) : TickRules s (l.foldl f s) := by
  induction l generalizing s with
  | nil => exact .refl
  | cons a l ih => exact (hf s a).trans (ih (f s a))

/-! ## Step 0: requests -/

variable {s t : State}

/-- Re-arming with the trigger enabled and an edge pending re-bases it to now (R121). -/
theorem rearm_tEdgePending (enabled : s.irqEnable = true) (pending : s.edgePending = true) :
    (rearm s).tEdgePending = s.now := by
  simp [rearm, enabled, pending]

theorem dispatcherRequest_rule (s : State) (r : DispatcherRequest) :
    TickRule s (dispatcherRequest s r) := by
  cases r with
  | transmit f =>
    show TickRule s (transmit f s)
    rcases transmit_cases f s with ⟨accepted, h⟩ | ⟨-, h⟩ <;> rw [h]
    · obtain ⟨handoff, -, valid⟩ := (transmitAccepted_iff f s).mp accepted
      exact .transmit f handoff valid
    · exact .refuse
  | release =>
    show TickRule s (release s)
    rcases release_cases s with ⟨handoff, h⟩ | ⟨-, h⟩ <;> rw [h]
    · rw [rearm_frame]
      exact .release _ handoff fun enabled pending => rearm_tEdgePending enabled pending
    · exact .refuse

theorem maskDraw_rule (enabled : s.irqEnable = true) (idle : s.fsm = .idle) :
    FlushRule s (maskDraw s) := by
  rcases maskDraw_cases s with h | ⟨-, h⟩ | ⟨-, h⟩ <;> rw [h]
  · exact .holdUntilClear enabled
  · exact .disable _ false idle
  · exact .disable _ s.edgePending idle

theorem maskAttempt_rule (s : State) : FlushRule s (maskAttempt s) := by
  rcases maskAttempt_cases s with
    ⟨-, h⟩ | ⟨enabled, -, h⟩ | ⟨enabled, idle, -, h⟩ | ⟨-, idle, -, h⟩ <;> rw [h]
  · exact .dropHold
  · exact .holdUntilIdle enabled
  · exact maskDraw_rule enabled idle
  · exact .disable s.env s.edgePending idle

theorem maskResume_rules (s : State) : TickRules s (maskResume s) := by
  rcases maskResume_cases s with ⟨-, h⟩ | ⟨-, h⟩ | ⟨-, idle, -, h⟩ | ⟨-, -, h⟩ <;> rw [h]
  · exact .single (.flush (maskAttempt_rule s))
  · exact .single (.flush (.disable s.env s.edgePending idle))

theorem flushRequest_rules (s : State) (r : FlushRequest) : TickRules s (flushRequest s r) := by
  cases r with
  | mask =>
    show TickRules s (mask s)
    unfold mask
    split
    · exact .single (.flush (maskAttempt_rule s))
    · exact .refl
  | unmask =>
    show TickRules s (unmask s)
    rcases unmask_cases s with ⟨-, h⟩ | ⟨-, -, h⟩ | ⟨-, nonePending, h⟩ <;> rw [h]
    · exact .single (.flush .enableRebased)
    · exact .single (.flush (.enable nonePending))

theorem applyRequests_rules (inp : TickInput) (s : State) : TickRules s (applyRequests inp s) :=
  (TickRules.foldl (fun s r => .single (dispatcherRequest_rule s r)) inp.dispatcher s).trans <|
    (maskResume_rules _).trans (TickRules.foldl flushRequest_rules inp.flush _)

/-! ## Steps 1 to 3: serializer, line, edge detector -/

theorem symbolAt_eq_data {prog : List Bit} {k : Nat} {b : Bit} :
    symbolAt prog k = .data b ↔ prog[k]? = some b := by
  unfold symbolAt
  cases prog[k]? <;> simp

theorem symbolAt_eq_stop {prog : List Bit} {k : Nat} :
    symbolAt prog k = .stop ↔ prog[k]? = none := by
  unfold symbolAt
  cases prog[k]? <;> simp

theorem endLow_rule (k : Nat) (s : State) : SerializerRule k s (endLow k s) := by
  unfold endLow
  split
  · next b h => exact .endBit b (symbolAt_eq_data.mp h)
  · next h => exact .endStop (symbolAt_eq_stop.mp h)

theorem txComplete_rule (k : Nat) (waiting : s.txSub = .doneWait) :
    SerializerRule k s (txComplete s) := by
  rw [txComplete, rearm_frame]
  exact .complete _ waiting fun enabled pending => rearm_tEdgePending enabled pending

theorem txRule_rule (h : txRule s = some t) : TickRule s t := by
  rcases txRule_cases s with
    none_holds | ⟨tx, -, k, at_, ⟨sub, rule⟩ | ⟨-, rule⟩ | ⟨sub, rule⟩ | ⟨sub, rule⟩⟩
  · simp [none_holds] at h
  all_goals
    obtain rfl := Option.some.inj (rule.symm.trans h)
    refine .serializer tx at_ ?_
  · exact .beginFirst sub
  · exact endLow_rule k s
  · exact .beginNext sub
  · exact txComplete_rule k sub

theorem txRepeat_rules (fuel : Nat) (s : State) : TickRules s (txRepeat fuel s) := by
  induction fuel generalizing s with
  | zero => exact .refl
  | succ fuel ih =>
    unfold txRepeat
    split
    · exact .refl
    · next t h => exact .head (txRule_rule h) (ih t)

theorem detectEdge_rules (s : State) : TickRules s (detectEdge s) := by
  unfold detectEdge
  split
  · rcases fallingEdge_cases s with ⟨-, -, h⟩ | ⟨-, h⟩ <;> rw [h]
    · exact .head .latch (.single (.level s.line))
    · exact .single (.level s.line)
  · exact .single (.level s.line)

theorem settle_rules (s : State) : TickRules s (settle s) :=
  (applyRequests_rules _ s).trans ((txRepeat_rules 2 _).trans (detectEdge_rules _))

/-! ## Step 4: the receive path -/

theorem rxStart_rule (due : startDue s = true) : ReceiveRule s (rxStart s) := by
  simp only [startDue, State.armed, Bool.and_eq_true, beq_iff_eq] at due
  obtain ⟨⟨⟨idle, enabled⟩, -⟩, -⟩ := due
  exact .start idle enabled

/-- Storing a bit writes the two shift registers only. -/
theorem rxStore_frame (b : Bit) (s : State) :
    ∃ hdr data, rxStore b s = { s with hdr := hdr, data := data } := by
  rcases rxStore_cases b s with h | h | h <;> rw [h]
  · exact ⟨s.hdr, s.data, rfl⟩
  · exact ⟨_, s.data, rfl⟩
  · exact ⟨s.hdr, _, rfl⟩

/-- Taking a bit counts it, writes the shift registers and may decide the length. -/
theorem rxTake_frame (b : Bit) (s : State) : ∃ need hdr op data, LengthDecision s need op ∧
    rxTake b s = { s with nbits := s.nbits + 1, need := need, hdr := hdr, rxOp := op, data := data } := by
  obtain ⟨hdr, data, stored⟩ := rxStore_frame b { s with nbits := s.nbits + 1 }
  by_cases h : s.need = none ∧ s.nbits + 1 = 9
  · refine ⟨_, hdr, commandByte hdr, data, .inl ⟨h.1, h.2, rfl⟩, ?_⟩
    rw [rxTake_ninth h.1 h.2, stored]
    rfl
  · have other : s.need ≠ none ∨ s.nbits + 1 ≠ 9 := not_and_or.mp h
    exact ⟨s.need, hdr, s.rxOp, data, .inr ⟨other, rfl, rfl⟩, (rxTake_other other).trans stored⟩

/-- An instruction has the command byte it was decoded from. -/
@[simp] theorem opcode_ofFields (op led : Byte) (addr : Half) (data : Block) :
    (Instr.ofFields op led addr data).opcode = op := by
  unfold Instr.ofFields
  split_ifs <;> simp_all [Instr.opcode]

theorem rxSample_rule (sampling : s.fsm = .rxSample) (h : rxSample s = .next t) : ReceiveRule s t := by
  obtain ⟨need, hdr, op, data, decision, taken⟩ := rxTake_frame s.line s
  rcases rxSample_cases s with ⟨whole, delivers⟩ | ⟨unfinished, goes_on⟩
  · cases delivers.symm.trans h
    rw [taken, State.frameWhole, beq_iff_eq] at whole
    rw [State.fetched, opcode_ofFields, taken]
    exact .deliver need hdr op data _ sampling decision whole
  · cases goes_on.symm.trans h
    rw [taken, State.frameWhole, beq_eq_false_iff_ne] at unfinished
    rw [taken]
    exact .nextBit need hdr op data sampling decision unfinished

theorem countRead_rule (phase : WaitPhase) (waiting : s.fsm = .rxWaitHigh ∨ s.fsm = .rxWaitLow)
    (due : readDue s = true) : ReceiveRule s (countRead phase s) := by
  rcases countRead_cases phase s with ⟨-, h⟩ | ⟨inBudget, h⟩ <;> rw [h]
  · exact .timeout phase waiting
  · exact .readAgain waiting (by simpa [readDue] using due) inBudget

theorem rxReadHigh_rule (waiting : s.fsm = .rxWaitHigh) (due : readDue s = true) :
    ReceiveRule s (rxReadHigh s) := by
  unfold rxReadHigh
  split
  · exact .seeHigh waiting
  · exact countRead_rule .waitHigh (.inl waiting) due

theorem rxReadLow_rule (waiting : s.fsm = .rxWaitLow) (due : readDue s = true) :
    ReceiveRule s (rxReadLow s) := by
  unfold rxReadLow
  split
  · exact countRead_rule .waitLow (.inr waiting) due
  · exact .seeEdge waiting

theorem rxRule_rule (h : rxRule s = some (.next t)) : ReceiveRule s t := by
  rcases rxRule_some_cases h with
    ⟨-, due, rule⟩ | ⟨sampling, -, rule⟩ | ⟨waiting, due, rule⟩ | ⟨waiting, due, rule⟩
  · cases rule
    exact rxStart_rule due
  · exact rxSample_rule sampling rule.symm
  · cases rule
    exact rxReadHigh_rule waiting due
  · cases rule
    exact rxReadLow_rule waiting due

theorem rxRepeat_rules {fuel : Nat} (h : rxRepeat fuel s = .next t) : TickRules s t := by
  induction fuel generalizing s with
  | zero =>
    cases h
    exact .refl
  | succ fuel ih =>
    unfold rxRepeat at h
    rcases rxRule_next s with none_due | ⟨u, due⟩
    · rw [none_due] at h
      cases h
      exact .refl
    · rw [due] at h
      exact .head (.receive (rxRule_rule due)) (ih h)

/-- Steps 0 to 4 of a tick apply rules, and do nothing else (R132). -/
theorem receive_settle_rules (h : receive (settle s) = .next t) : TickRules s t :=
  (settle_rules s).trans (rxRepeat_rules h)

/-! ## Quiescence: when a tick's rules are over none of them holds -/

/-- A serializer rule holds in `TX` at the end of a phase, unless the program is over (41_transmit.md
section 2). -/
theorem txRule_eq_none_iff : txRule s = none ↔ s.fsm ≠ .tx ∨ s.now ≠ s.tUntil ∨ s.txPc = .stop := by
  unfold txRule
  by_cases due : s.fsm = .tx ∧ s.now = s.tUntil
  · obtain ⟨tx, ends⟩ := due
    cases s.txPc with
    | stop => simp
    | bit k => cases s.txSub <;> simp [tx, ends]
  · rcases not_and_or.mp due with not_tx | not_ended
    · simp [not_tx]
    · simp [not_ended]

/-- No receive rule leads to or from `TX`. -/
theorem ReceiveRule.fsm_ne_tx (rule : ReceiveRule s t) : s.fsm ≠ .tx ∧ t.fsm ≠ .tx := by
  cases rule with
  | start idle => simp [idle, rxStart]
  | deliver _ _ _ _ _ sampling => simp [sampling]
  | nextBit _ _ _ _ sampling => simp [sampling]
  | seeHigh waiting => simp [waiting]
  | seeEdge waiting => simp [waiting]
  | readAgain waiting => rcases waiting with h | h <;> simp [h]
  | timeout _ waiting => rcases waiting with h | h <;> simp [h]

/-- The edge detector leaves the serializer alone. -/
theorem detectEdge_txRule (h : txRule s = none) : txRule (detectEdge s) = none := by
  rw [txRule_eq_none_iff] at h ⊢
  unfold detectEdge
  split
  · rcases fallingEdge_cases s with ⟨-, -, e⟩ | ⟨-, e⟩ <;> rw [e] <;> exact h
  · exact h

theorem rxRepeat_txRule {fuel : Nat} (h : rxRepeat fuel s = .next t) (quiet : txRule s = none) :
    txRule t = none := by
  induction fuel generalizing s with
  | zero =>
    cases h
    exact quiet
  | succ fuel ih =>
    unfold rxRepeat at h
    rcases rxRule_next s with none_due | ⟨u, due⟩
    · rw [none_due] at h
      cases h
      exact quiet
    · rw [due] at h
      exact ih h (txRule_none_of_ne (rxRule_rule due).fsm_ne_tx.2)

/-- After steps 0 to 4 no rule of the serializer holds. -/
theorem receive_settle_txRule (accepted : parametersInRange s.cfg = true)
    (h : receive (settle s) = .next t) : txRule t = none := by
  have same_cfg := (applyRequests_sameTick s.env.input s).cfg
  exact rxRepeat_txRule h (detectEdge_txRule (serialize_quiescent (by rwa [same_cfg])))

/-- In a phase the one receive rule is its next read (R89, R90). -/
theorem rxRule_none_iff_of_waiting (waiting : s.fsm = .rxWaitHigh ∨ s.fsm = .rxWaitLow) :
    rxRule s = none ↔ s.now ≠ s.tPhase + (s.waitN + 1) * s.cfg.pollTicks := by
  rcases waiting with h | h <;> simp [rxRule, h, readDue]

/-- In `RX_SAMPLE` the one receive rule is the sample (R86). -/
theorem rxRule_none_iff_of_sampling (sampling : s.fsm = .rxSample) :
    rxRule s = none ↔ s.now ≠ s.tBase + s.cfg.sampleDelay := by
  simp [rxRule, sampling, sampleDue]

/-- In `IDLE`, armed and with an edge pending, the one receive rule is the start (R85). -/
theorem rxRule_none_iff_of_pending (idle : s.fsm = .idle) (enabled : s.irqEnable = true)
    (pending : s.edgePending = true) : rxRule s = none ↔ s.now ≠ s.tEdgePending + s.entryDelay := by
  simp [rxRule, idle, startDue, State.armed, enabled, pending]

/-- A phase's first read is at least one tick away (R13). -/
theorem rxRule_none_of_phase_begun (poll : 1 ≤ s.cfg.pollTicks) (begun : s.tPhase = s.now)
    (first : s.waitN = 0) (waiting : s.fsm = .rxWaitHigh ∨ s.fsm = .rxWaitLow) : rxRule s = none := by
  rw [rxRule_none_iff_of_waiting waiting, begun, first, Nat.zero_add, Nat.one_mul]
  exact Nat.ne_of_lt (Nat.lt_add_of_pos_right poll)

theorem rxRule_none_of_handoff (h : s.fsm = .handoff) : rxRule s = none := by
  simp [rxRule, h]

/-- A receive rule that is not followed by another in its tick leaves none due; only one that enters the
sampling of a bit can be followed by another, the sample (P_SAMPLE_DELAY 0). -/
theorem ReceiveRule.quiet (poll : 1 ≤ s.cfg.pollTicks) (rule : ReceiveRule s t) :
    rxRule t = none ∨ (s.fsm ≠ .rxSample ∧ t.fsm = .rxSample) := by
  cases rule with
  | start idle => exact .inr ⟨by simp [idle], rfl⟩
  | deliver => exact .inl (rxRule_none_of_handoff rfl)
  | nextBit => exact .inl (rxRule_none_of_phase_begun poll rfl rfl (.inl rfl))
  | seeHigh => exact .inl (rxRule_none_of_phase_begun poll rfl rfl (.inr rfl))
  | seeEdge waiting => exact .inr ⟨by simp [waiting], rfl⟩
  | readAgain waiting due =>
    have next_later : (s.waitN + 1) * s.cfg.pollTicks < (s.waitN + 1 + 1) * s.cfg.pollTicks :=
      Nat.mul_lt_mul_of_pos_right (Nat.lt_succ_self _) poll
    refine .inl ((rxRule_none_iff_of_waiting (by exact waiting)).mpr (Nat.ne_of_lt ?_))
    exact due.trans_lt (Nat.add_lt_add_left next_later _)
  | timeout => exact .inl (rxRule_none_of_handoff rfl)

/-- After step 4 no receive rule holds: the fuel of two is enough (log 19). -/
theorem receive_rxRule (poll : 1 ≤ s.cfg.pollTicks) (h : receive s = .next t) : rxRule t = none := by
  unfold receive at h
  rcases rxRule_next s with none_due | ⟨u, due⟩
  · simp only [rxRepeat, none_due] at h
    cases h
    exact none_due
  rcases rxRule_next u with none_due | ⟨v, due'⟩
  · simp only [rxRepeat, due, none_due] at h
    cases h
    exact none_due
  · simp only [rxRepeat, due, due'] at h
    cases h
    have poll' : 1 ≤ u.cfg.pollTicks := by rwa [(rxRule_sameTick due).cfg]
    rcases (rxRule_rule due).quiet poll with quiet | ⟨-, sampling⟩
    · simp [quiet] at due'
    · exact ((rxRule_rule due').quiet poll').resolve_right fun h => h.1 sampling

/-! ## The whole step -/

/-- All a step can do: a reset, or rules of the tick until none holds and then the advance of time. -/
theorem step_rules (steps : step s = .next t) :
    (s.env.input.reset = true ∧ t = applyReset s)
      ∨ (s.env.input.reset = false ∧ parametersInRange s.cfg = true
        ∧ ∃ u, TickRules s u ∧ txRule u = none ∧ rxRule u = none ∧ t = advanceTime u) := by
  rcases step_cases s with ⟨r, -, refused⟩ | ⟨-, reset, resets⟩ |
      ⟨accepted, no_reset, u, received, ends⟩
  · cases refused.symm.trans steps
  · cases resets.symm.trans steps
    exact .inl ⟨reset, rfl⟩
  · cases ends.symm.trans steps
    have inRange := ((configProblem_none_iff s.cfg).mp accepted).1
    have poll : 1 ≤ s.cfg.pollTicks := ((parametersInRange_iff s.cfg).mp inRange).2.2.1
    refine .inr ⟨no_reset, inRange, u, receive_settle_rules received,
      receive_settle_txRule inRange received, receive_rxRule ?_ received, rfl⟩
    rwa [(settle_sameTick s).cfg]

end Sys2Proof.Machine
end

section
/-! What every rule of a tick keeps: the refusal mark, and the five parts of the invariant. -/

namespace Sys2Proof.Machine

variable {s t : State}

/-! ## What a group of rules leaves alone -/

theorem TickRule.cfg_eq (rule : TickRule s t) : t.cfg = s.cfg := by
  cases rule with
  | flush rule => cases rule <;> rfl
  | serializer _ _ rule => cases rule <;> rfl
  | receive rule => cases rule <;> rfl
  | _ => rfl

/-- The refusal mark is set by a refusal and written by no other rule (R46). -/
theorem TickRule.refused (rule : TickRule s t) (h : s.refused = true) : t.refused = true := by
  cases rule with
  | refuse => rfl
  | flush rule => cases rule <;> exact h
  | serializer _ _ rule => cases rule <;> exact h
  | receive rule => cases rule <;> exact h
  | _ => exact h

/-- The receive path leaves the transmitter alone. -/
theorem ReceiveRule.transmitter_eq (rule : ReceiveRule s t) :
    t.cfg = s.cfg ∧ t.devLow = s.devLow ∧ t.txProg = s.txProg ∧ t.txPc = s.txPc := by
  cases rule <;> exact ⟨rfl, rfl, rfl, rfl⟩

/-! ## The drive (R28, R93) -/

theorem DriveInv.of_released (h : s.devLow = false) : DriveInv s :=
  fun low => absurd (h.symm.trans low) nofun

theorem DriveInv.released (h : DriveInv s) (elsewhere : ¬(s.fsm = .tx ∧ s.txSub = .low)) :
    s.devLow = false :=
  Bool.eq_false_iff.mpr fun low => elsewhere (h low)

theorem TickRule.driveInv (rule : TickRule s t) (h : DriveInv s) : DriveInv t := by
  cases rule with
  | refuse => exact h
  | transmit _ handoff => exact .of_released (h.released (by simp [handoff]))
  | release _ handoff => exact .of_released (h.released (by simp [handoff]))
  | flush rule => cases rule <;> exact h
  | serializer tx _ rule =>
    cases rule with
    | beginFirst => exact fun _ => ⟨tx, rfl⟩
    | endBit => exact .of_released rfl
    | endStop => exact .of_released rfl
    | beginNext => exact fun _ => ⟨tx, rfl⟩
    | complete _ waiting => exact .of_released (h.released (by simp [waiting]))
  | latch => exact h
  | level => exact h
  | receive rule =>
    exact .of_released <| rule.transmitter_eq.2.1.trans <| h.released fun e => rule.fsm_ne_tx.1 e.1

/-! ## The serializer (R42 to R44) -/

/-- A frame takes the sum of its widths on the wire (R106). -/
theorem wireBits_length (f : ProtocolFrame) : (wireBits f).length = frameWidth f := by
  simp [wireBits, frameWidth, List.length_flatMap]

theorem frameWidth_le_of_valid {cfg : Config} {f : ProtocolFrame} (valid : frameValid cfg f = true) :
    frameWidth f ≤ cfg.maxFrameBits := by
  simp only [frameValid, Bool.and_eq_true, decide_eq_true_eq] at valid
  exact valid.2

/-- Outside `TX` the serializer is only parked, with its last program. -/
theorem TxInv.of_parked (fits : s.txProg.length ≤ s.cfg.maxFrameBits) (not_tx : s.fsm ≠ .tx)
    (parked : s.txPc = .stop) : TxInv s where
  fits := fits
  parked _ := parked
  running tx := absurd tx not_tx
  low tx := absurd tx not_tx
  began tx := absurd tx not_tx
  due tx := absurd tx not_tx

theorem SerializerRule.txInv {k : Nat} (tx : s.fsm = .tx) (at_ : s.txPc = .bit k)
    (rule : SerializerRule k s t) (h : TxInv s) : TxInv t := by
  obtain ⟨k', at', inside, -, high_inside, -⟩ := h.running tx
  obtain rfl : k = k' := TxPc.bit.inj (at_.symm.trans at')
  cases rule with
  | beginFirst =>
    exact { h with
      parked := absurd tx
      running := fun _ => ⟨k, rfl, inside, nofun, nofun, nofun⟩
      low := fun _ _ => rfl
      began := fun _ => Nat.le_refl _
      due := fun _ => Nat.le_add_right _ _ }
  | endBit b symbol =>
    obtain ⟨before_stop, -⟩ := List.getElem?_eq_some_iff.mp symbol
    exact { h with
      running := fun _ => ⟨k, at_, inside, nofun, fun _ => before_stop, nofun⟩
      low := nofun
      began := fun _ => Nat.le_refl _
      due := fun _ => Nat.le_add_right _ _ }
  | endStop symbol =>
    have at_stop : k = s.txProg.length := Nat.le_antisymm inside (List.getElem?_eq_none_iff.mp symbol)
    exact { h with
      running := fun _ => ⟨k, at_, inside, nofun, nofun, fun _ => at_stop⟩
      low := nofun
      began := fun _ => Nat.le_refl _
      due := fun _ => Nat.le_add_right _ _ }
  | beginNext high =>
    exact { h with
      parked := absurd tx
      running := fun _ => ⟨k + 1, rfl, high_inside high, nofun, nofun, nofun⟩
      low := fun _ _ => rfl
      began := fun _ => Nat.le_refl _
      due := fun _ => Nat.le_add_right _ _ }
  | complete => exact .of_parked h.fits nofun rfl

theorem TickRule.txInv (rule : TickRule s t) (h : TxInv s) : TxInv t := by
  cases rule with
  | refuse => exact { h with }
  | transmit f _ valid =>
    exact {
      fits := (wireBits_length f).trans_le (frameWidth_le_of_valid valid)
      parked := absurd rfl
      running := fun _ => ⟨0, rfl, Nat.zero_le _, fun _ => rfl, nofun, nofun⟩
      low := nofun
      began := fun _ => Nat.le_refl _
      due := fun _ => Nat.le_add_right _ _ }
  | release _ handoff => exact .of_parked h.fits nofun (h.parked (by simp [handoff]))
  | flush rule => cases rule <;> exact { h with }
  | serializer tx at_ rule => exact rule.txInv tx at_ h
  | latch => exact { h with }
  | level => exact { h with }
  | receive rule =>
    obtain ⟨before, after⟩ := rule.fsm_ne_tx
    obtain ⟨cfg, -, prog, pc⟩ := rule.transmitter_eq
    exact .of_parked (by rw [prog, cfg]; exact h.fits) after (pc.trans (h.parked before))

/-! ## The receive path (R34 to R36, R40) -/

/-- A frame has at least the 9 bits the length decision takes. -/
theorem nine_le_frameNeed (extStop : Bool) (op : Byte) : 9 ≤ frameNeed extStop op := by
  unfold frameNeed formatOf
  split_ifs with brd bwr kbd
  · exact Nat.le_add_right_of_le (by decide)
  · exact Nat.le_add_right_of_le (by decide)
  · exact Nat.le_add_right_of_le (by decide)
  · simp [FrameFormat.bodyBits, hasStop, isExtended, brd, bwr, kbd]

/-- The longest frame is the block write with its stop bit (R70). -/
theorem frameNeed_le (extStop : Bool) (op : Byte) : frameNeed extStop op ≤ 281 := by
  have body : (formatOf op).bodyBits ≤ 280 := by cases formatOf op <;> decide
  exact Nat.add_le_add body (Bool.toNat_le _)

/-- A busy-wait phase in progress (R40, R89, R90), as the invariant has it of both. -/
def Waiting (s : State) : Prop :=
  inFrame s ∧ 1 ≤ s.nbits ∧ s.waitN < s.cfg.waitBudget
    ∧ s.tPhase + s.waitN * s.cfg.pollTicks ≤ s.now
    ∧ s.now ≤ s.tPhase + (s.waitN + 1) * s.cfg.pollTicks

theorem Waiting.of_begun (frame : inFrame s) (bits : 1 ≤ s.nbits) (budget : 1 ≤ s.cfg.waitBudget)
    (begun : s.tPhase = s.now) (first : s.waitN = 0) : Waiting s := by
  refine ⟨frame, bits, first ▸ budget, ?_, ?_⟩
  · rw [begun, first, Nat.zero_mul, Nat.add_zero]
  · exact begun ▸ Nat.le_add_right _ _

theorem Waiting.readAgain (h : Waiting s) (due : s.now = s.tPhase + (s.waitN + 1) * s.cfg.pollTicks)
    (inBudget : s.waitN + 1 ≠ s.cfg.waitBudget) : Waiting { s with waitN := s.waitN + 1 } := by
  obtain ⟨frame, bits, reads, -, -⟩ := h
  refine ⟨frame, bits, Nat.lt_of_le_of_ne reads inBudget, due.ge, ?_⟩
  exact due.trans_le (Nat.add_le_add_left (Nat.mul_le_mul_right _ (Nat.le_succ _)) _)

theorem RxInv.waiting (h : RxInv s) (waiting : s.fsm = .rxWaitHigh ∨ s.fsm = .rxWaitLow) : Waiting s :=
  waiting.elim h.waitingHigh h.waitingLow

/-- The bits of a frame that is not yet whole are at most 280. -/
theorem RxInv.nbits_le (h : RxInv s) (frame : inFrame s) : s.nbits ≤ 280 := by
  rcases frame with ⟨-, few⟩ | ⟨n, decided, -, fewer⟩
  · omega
  · have longest := frameNeed_le s.cfg.extStop s.rxOp
    rw [← h.decided n decided] at longest
    omega

section
variable {need : Option Nat} {op : Byte}

/-- The length decision after a bit is `need(rx_op)`. -/
theorem RxInv.decided_after (h : RxInv s) (decision : LengthDecision s need op) :
    ∀ n, need = some n → n = frameNeed s.cfg.extStop op := by
  intro n some_n
  rcases decision with ⟨-, -, rfl⟩ | ⟨-, rfl, rfl⟩
  · exact (Option.some.inj some_n).symm
  · exact h.decided n some_n

/-- After a bit that is not the frame's last, the frame goes on. -/
theorem inFrame_after (frame : inFrame s) (decision : LengthDecision s need op)
    (unfinished : need ≠ some (s.nbits + 1)) :
    (need = none ∧ s.nbits + 1 ≤ 8) ∨ ∃ n, need = some n ∧ 9 ≤ s.nbits + 1 ∧ s.nbits + 1 < n := by
  rcases decision with ⟨-, ninth, rfl⟩ | ⟨other, rfl, -⟩
  · have longer : 9 < frameNeed s.cfg.extStop op := Nat.lt_of_le_of_ne (nine_le_frameNeed _ _)
      fun e => unfinished (congrArg some (e.symm.trans ninth.symm))
    exact .inr ⟨_, rfl, ninth.ge, ninth.trans_lt longer⟩
  · rcases frame with ⟨undecided, few⟩ | ⟨n, decided, many, fewer⟩
    · have not_ninth : s.nbits + 1 ≠ 9 := other.resolve_left (· undecided)
      exact .inl ⟨undecided, by omega⟩
    · have not_last : s.nbits + 1 ≠ n := fun last => unfinished (last ▸ decided)
      exact .inr ⟨n, decided, by omega, by omega⟩

end

theorem ReceiveRule.rxInv (budget : 1 ≤ s.cfg.waitBudget) (rule : ReceiveRule s t) (h : RxInv s) :
    RxInv t := by
  cases rule with
  | start =>
    exact {
      count := Nat.zero_le _
      decided := nofun
      sampling := fun _ => ⟨.inl ⟨rfl, Nat.zero_le _⟩, Nat.le_refl _, Nat.le_add_right _ _⟩
      waitingHigh := nofun
      waitingLow := nofun }
  | deliver need hdr op data f sampling =>
    exact {
      count := Nat.succ_le_succ (h.nbits_le (h.sampling sampling).1)
      decided := fun n decided => (Option.some.inj decided).symm
      sampling := nofun
      waitingHigh := nofun
      waitingLow := nofun }
  | nextBit need hdr op data sampling decision unfinished =>
    have frame := (h.sampling sampling).1
    exact {
      count := Nat.succ_le_succ (h.nbits_le frame)
      decided := h.decided_after decision
      sampling := nofun
      waitingHigh := fun _ => Waiting.of_begun (inFrame_after frame decision unfinished)
        (Nat.succ_le_succ (Nat.zero_le _)) budget rfl rfl
      waitingLow := nofun }
  | seeHigh waiting =>
    obtain ⟨frame, bits, -⟩ := h.waitingHigh waiting
    exact { h with
      sampling := nofun
      waitingHigh := nofun
      waitingLow := fun _ => Waiting.of_begun frame bits budget rfl rfl }
  | seeEdge waiting =>
    obtain ⟨frame, -⟩ := h.waitingLow waiting
    exact { h with
      sampling := fun _ => ⟨frame, Nat.le_refl _, Nat.le_add_right _ _⟩
      waitingHigh := nofun
      waitingLow := nofun }
  | readAgain waiting due inBudget =>
    have again := (h.waiting waiting).readAgain due inBudget
    exact { h with
      waitingHigh := fun _ => again
      waitingLow := fun _ => again }
  | timeout => exact { h with sampling := nofun, waitingHigh := nofun, waitingLow := nofun }

theorem TickRule.rxInv (budget : 1 ≤ s.cfg.waitBudget) (rule : TickRule s t) (h : RxInv s) :
    RxInv t := by
  cases rule with
  | refuse => exact { h with }
  | transmit => exact { h with sampling := nofun, waitingHigh := nofun, waitingLow := nofun }
  | release => exact { h with sampling := nofun, waitingHigh := nofun, waitingLow := nofun }
  | flush rule => cases rule <;> exact { h with }
  | serializer _ _ rule =>
    cases rule with
    | complete => exact { h with sampling := nofun, waitingHigh := nofun, waitingLow := nofun }
    | _ => exact { h with }
  | latch => exact { h with }
  | level => exact { h with }
  | receive rule => exact rule.rxInv budget h

/-! ## The hand-off (R33, R41) -/

theorem ResultInv.of_none (elsewhere : s.fsm ≠ .handoff) (none_ : s.rxResult = .none) : ResultInv s where
  posted := iff_of_false elsewhere (absurd none_)
  whole _ ok := absurd (none_.symm.trans ok) nofun
  timeout _ err := absurd (none_.symm.trans err) nofun

theorem ResultInv.rxResult_eq_none (h : ResultInv s) (elsewhere : s.fsm ≠ .handoff) :
    s.rxResult = .none :=
  Decidable.not_not.mp fun posted => elsewhere (h.posted.mpr posted)

theorem ReceiveRule.resultInv (rule : ReceiveRule s t) (rx : RxInv s) (h : ResultInv s) :
    ResultInv t := by
  cases rule with
  | start => exact .of_none nofun rfl
  | deliver need hdr op data f sampling decision whole =>
    have length := rx.decided_after decision _ whole
    exact {
      posted := iff_of_true rfl nofun
      whole := fun _ _ => congrArg some length.symm
      timeout := nofun }
  | nextBit _ _ _ _ sampling => exact .of_none nofun (h.rxResult_eq_none (by simp [sampling]))
  | seeHigh waiting => exact .of_none nofun (h.rxResult_eq_none (by simp [waiting]))
  | seeEdge waiting => exact .of_none nofun (h.rxResult_eq_none (by simp [waiting]))
  | readAgain => exact { h with }
  | timeout phase waiting =>
    obtain ⟨frame, bits, -⟩ := rx.waiting waiting
    refine { posted := iff_of_true rfl nofun, whole := nofun, timeout := ?_ }
    rintro _ ⟨⟩
    exact ⟨rfl, bits, rx.nbits_le frame⟩

theorem TickRule.resultInv (rule : TickRule s t) (rx : RxInv s) (h : ResultInv s) : ResultInv t := by
  cases rule with
  | refuse => exact { h with }
  | transmit => exact .of_none nofun rfl
  | release => exact .of_none nofun rfl
  | flush rule => cases rule <;> exact { h with }
  | serializer tx _ rule =>
    cases rule with
    | complete => exact .of_none nofun (h.rxResult_eq_none (by simp [tx]))
    | _ => exact { h with }
  | latch => exact { h with }
  | level => exact { h with }
  | receive rule => exact rule.resultInv rx h

/-! ## The edge trigger (R31, R32, R85, R126, R129) -/

/-- Outside `IDLE` the trigger is enabled (R129). -/
theorem EdgeInv.enabled (h : EdgeInv s) (busy : s.fsm ≠ .idle) : s.irqEnable = true :=
  Bool.of_not_eq_false fun masked => busy (h.masked masked)

theorem FlushRule.edgeInv (rule : FlushRule s t) (h : EdgeInv s) : EdgeInv t := by
  cases rule with
  | dropHold => exact { h with held := absurd rfl }
  | holdUntilIdle enabled => exact { h with held := fun _ => enabled }
  | holdUntilClear enabled => exact { h with held := fun _ => enabled }
  | disable _ _ idle => exact { h with masked := fun _ => idle, held := absurd rfl, due := nofun }
  | enable nonePending =>
    exact { h with
      masked := nofun
      held := fun _ => rfl
      due := fun _ _ pending => absurd (nonePending.symm.trans pending) nofun }
  | enableRebased =>
    exact { h with
      masked := nofun
      held := fun _ => rfl
      due := fun _ _ _ => Nat.le_add_right _ _ }

/-- A receive starts only while armed, and no rule of it ends in `IDLE`. -/
theorem ReceiveRule.edgeInv (rule : ReceiveRule s t) (h : EdgeInv s) : EdgeInv t := by
  have keeps_enabled : t.irqEnable = s.irqEnable := by cases rule <;> rfl
  have busy : s.irqEnable = true ∧ t.fsm ≠ .idle := by
    cases rule with
    | start _ enabled => exact ⟨enabled, nofun⟩
    | deliver _ _ _ _ _ sampling => exact ⟨h.enabled (by simp [sampling]), nofun⟩
    | nextBit _ _ _ _ sampling => exact ⟨h.enabled (by simp [sampling]), nofun⟩
    | seeHigh waiting => exact ⟨h.enabled (by simp [waiting]), nofun⟩
    | seeEdge waiting => exact ⟨h.enabled (by simp [waiting]), nofun⟩
    | readAgain waiting =>
      have busy : s.fsm ≠ .idle := by rcases waiting with e | e <;> simp [e]
      exact ⟨h.enabled busy, busy⟩
    | timeout _ waiting =>
      exact ⟨h.enabled (by rcases waiting with e | e <;> simp [e]), nofun⟩
  have enabled : t.irqEnable = true := keeps_enabled.trans busy.1
  exact {
    masked := fun masked => absurd (enabled.symm.trans masked) nofun
    held := fun _ => enabled
    latency := by cases rule <;> exact h.latency
    due := fun idle => absurd idle busy.2 }

theorem TickRule.edgeInv (rule : TickRule s t) (h : EdgeInv s) : EdgeInv t := by
  cases rule with
  | refuse => exact { h with }
  | transmit _ handoff =>
    exact { h with
      masked := fun masked => absurd (h.masked masked) (by simp [handoff])
      due := nofun }
  | release te _ rebased =>
    exact { h with
      masked := fun _ => rfl
      due := fun _ enabled pending => (rebased enabled pending).ge.trans (Nat.le_add_right _ _) }
  | flush rule => exact rule.edgeInv h
  | serializer _ _ rule =>
    cases rule with
    | complete te _ rebased =>
      exact { h with
        masked := fun _ => rfl
        due := fun _ enabled pending => (rebased enabled pending).ge.trans (Nat.le_add_right _ _) }
    | _ => exact { h with }
  | latch => exact { h with latency := chooseUpTo_le _ _, due := fun _ _ _ => Nat.le_add_right _ _ }
  | level => exact { h with }
  | receive rule => exact rule.edgeInv h

/-! ## The invariant -/

theorem TickRule.inv (budget : 1 ≤ s.cfg.waitBudget) (rule : TickRule s t) (h : Inv s) : Inv t where
  drive := rule.driveInv h.drive
  tx := rule.txInv h.tx
  rx := rule.rxInv budget h.rx
  result := rule.resultInv h.rx h.result
  edge := rule.edgeInv h.edge

theorem TickRules.inv (budget : 1 ≤ s.cfg.waitBudget) (rules : TickRules s t) (h : Inv s) : Inv t :=
  (rules.keep (P := fun s => 1 ≤ s.cfg.waitBudget ∧ Inv s)
    (fun _ _ rule h => ⟨rule.cfg_eq ▸ h.1, rule.inv h.1 h.2⟩) ⟨budget, h⟩).2

/-- The end of a phase of the serializer at which no rule holds is still to come. -/
theorem TxInv.lt_due (h : TxInv s) (quiet : txRule s = none) (tx : s.fsm = .tx) : s.now < s.tUntil := by
  obtain ⟨k, at_, -⟩ := h.running tx
  rcases txRule_eq_none_iff.mp quiet with not_tx | not_due | stopped
  · exact absurd tx not_tx
  · exact Nat.lt_of_le_of_ne (h.due tx) not_due
  · exact absurd (at_.symm.trans stopped) nofun

theorem Waiting.advanceTime (h : Waiting s) (quiet : rxRule s = none)
    (waiting : s.fsm = .rxWaitHigh ∨ s.fsm = .rxWaitLow) : Waiting (advanceTime s) := by
  obtain ⟨frame, bits, reads, behind, ahead⟩ := h
  exact ⟨frame, bits, reads, Nat.le_succ_of_le behind,
    Nat.lt_of_le_of_ne ahead ((rxRule_none_iff_of_waiting waiting).mp quiet)⟩

/-- Time moves on only when no rule holds, so no due instant is missed. -/
theorem advanceTime_inv (h : Inv s) (txQuiet : txRule s = none) (rxQuiet : rxRule s = none) :
    Inv (advanceTime s) where
  drive := h.drive
  tx := { h.tx with
    began := fun tx => Nat.le_succ_of_le (h.tx.began tx)
    due := h.tx.lt_due txQuiet }
  rx := { h.rx with
    sampling := fun sampling => by
      obtain ⟨frame, behind, ahead⟩ := h.rx.sampling sampling
      exact ⟨frame, Nat.le_succ_of_le behind,
        Nat.lt_of_le_of_ne ahead ((rxRule_none_iff_of_sampling (s := s) sampling).mp rxQuiet)⟩
    waitingHigh := fun waiting => (h.rx.waiting (.inl waiting)).advanceTime rxQuiet (.inl waiting)
    waitingLow := fun waiting => (h.rx.waiting (.inr waiting)).advanceTime rxQuiet (.inr waiting) }
  result := { h.result with }
  edge := { h.edge with
    due := fun idle enabled pending => Nat.lt_of_le_of_ne (h.edge.due idle enabled pending)
      ((rxRule_none_iff_of_pending (s := s) idle enabled pending).mp rxQuiet) }

/-- A reset leaves the invariant, from any state (R151). -/
theorem applyReset_inv (s : State) : Inv (applyReset s) where
  drive := .of_released rfl
  tx := .of_parked (Nat.zero_le _) nofun rfl
  rx := { count := Nat.zero_le _, decided := nofun, sampling := nofun, waitingHigh := nofun, waitingLow := nofun }
  result := .of_none nofun rfl
  edge := { masked := fun _ => rfl, held := absurd rfl, latency := Nat.zero_le _, due := nofun }

end Sys2Proof.Machine

namespace Sys2Proof.Proofs

open Sys2Proof.Machine

/-- Settles O51: a reset leaves the invariant from any state, every rule of a tick keeps each of its parts,
and since the tick's rules run until none holds, the advance of time misses no due instant. -/
theorem everyStepKeepsTheInvariant : Obligations.EveryStepKeepsTheInvariant := by
  intro s t h steps
  rcases step_rules steps with ⟨-, rfl⟩ | ⟨-, inRange, u, rules, txQuiet, rxQuiet, rfl⟩
  · exact applyReset_inv s
  · have budget : 1 ≤ s.cfg.waitBudget := ((parametersInRange_iff s.cfg).mp inRange).2.1
    exact advanceTime_inv (rules.inv budget h) txQuiet rxQuiet

/-- Settles O28: every rule of a tick keeps a set mark, and so does the advance of time. -/
theorem refusalMarkIsKept : Obligations.RefusalMarkIsKept := by
  intro s t no_reset steps marked
  rcases step_rules steps with ⟨reset, -⟩ | ⟨-, -, u, rules, -, -, rfl⟩
  · exact absurd (no_reset.symm.trans reset) nofun
  · exact rules.keep (P := fun s => s.refused = true) (fun _ _ rule => rule.refused) marked

/-- Settles O39: a reset releases the line, and every rule of a tick keeps the drive's part of the
invariant by itself, from states that need not meet the rest of it. -/
theorem deviceDrivesOnlySymbols : Obligations.DeviceDrivesOnlySymbols := by
  intro s t h steps
  rcases step_rules steps with ⟨-, rfl⟩ | ⟨-, -, u, rules, -, -, rfl⟩
  · exact (applyReset_inv s).drive
  · exact rules.keep (fun _ _ rule => rule.driveInv) h

end Sys2Proof.Proofs
end

section
/-! What one tick can do to the posted result (R58): the requests, the serializer and the edge detector
at most clear it, and begin no receive; step 4 posts one only out of a receive that was in progress. -/

namespace Sys2Proof.Machine

variable {s t u : State}

/-- A receive is in progress: a bit is being sampled, or waited for (R33). -/
def Receiving (s : State) : Prop := s.fsm = .rxSample ∨ s.fsm = .rxWaitHigh ∨ s.fsm = .rxWaitLow

/-- Between `s` and `t` no result is posted, though one may be cleared, and no receive begins. -/
structure PostsNothing (s t : State) : Prop where
  result : t.rxResult = s.rxResult ∨ t.rxResult = .none
  receiving : Receiving t → Receiving s

namespace PostsNothing

theorem of_eq (fsm : t.fsm = s.fsm) (result : t.rxResult = s.rxResult) : PostsNothing s t :=
  ⟨.inl result, by simp only [Receiving, fsm, imp_self]⟩

@[refl] theorem refl (s : State) : PostsNothing s s := of_eq rfl rfl

@[trans] theorem trans (h : PostsNothing s t) (g : PostsNothing t u) : PostsNothing s u where
  result := g.result.elim (fun kept => kept ▸ h.result) .inr
  receiving := h.receiving ∘ g.receiving

theorem foldl {α : Type} {f : State → α → State} (hf : ∀ s a, PostsNothing s (f s a)) (l : List α)
    (s : State) : PostsNothing s (l.foldl f s) := by
  induction l generalizing s with
  | nil => exact refl s
  | cons a l ih => exact (hf s a).trans (ih (f s a))

theorem of_flushWrites (h : flushWrites s t) : PostsNothing s t := by
  obtain ⟨_, _, _, _, _, -, -, rfl⟩ := h
  exact of_eq rfl rfl

end PostsNothing

/-! ## Steps 0 to 3 -/

theorem dispatcherRequest_postsNothing (s : State) (r : DispatcherRequest) :
    PostsNothing s (dispatcherRequest s r) := by
  cases r with
  | transmit f =>
    show PostsNothing s (transmit f s)
    rcases transmit_cases f s with ⟨-, h⟩ | ⟨-, h⟩ <;> rw [h]
    · exact ⟨.inr rfl, by simp [Receiving]⟩
    · exact .of_eq rfl rfl
  | release =>
    show PostsNothing s (release s)
    rcases release_cases s with ⟨-, h⟩ | ⟨-, h⟩ <;> rw [h]
    · exact ⟨.inr (rearm_rxResult _), by simp [Receiving]⟩
    · exact .of_eq rfl rfl

theorem applyRequests_postsNothing (inp : TickInput) (s : State) :
    PostsNothing s (applyRequests inp s) :=
  (PostsNothing.foldl dispatcherRequest_postsNothing inp.dispatcher s).trans <|
    .of_flushWrites (flushWrites_trans (maskResume_writes _) (flushRequests_writes inp.flush _))

theorem SerializerRule.postsNothing {k : Nat} (rule : SerializerRule k s t) : PostsNothing s t := by
  cases rule with
  | complete => exact ⟨.inl rfl, by simp [Receiving]⟩
  | _ => exact .of_eq rfl rfl

theorem txRule_postsNothing (h : txRule s = some t) : PostsNothing s t := by
  rcases txRule_cases s with
    none_holds | ⟨-, -, k, -, ⟨sub, rule⟩ | ⟨-, rule⟩ | ⟨sub, rule⟩ | ⟨sub, rule⟩⟩
  · simp [none_holds] at h
  all_goals obtain rfl := Option.some.inj (rule.symm.trans h)
  · exact (SerializerRule.beginFirst sub).postsNothing
  · exact (endLow_rule k s).postsNothing
  · exact (SerializerRule.beginNext sub).postsNothing
  · exact (txComplete_rule k sub).postsNothing

theorem txRepeat_postsNothing (fuel : Nat) (s : State) : PostsNothing s (txRepeat fuel s) := by
  induction fuel generalizing s with
  | zero => exact .refl s
  | succ fuel ih =>
    unfold txRepeat
    split
    · exact .refl s
    · next t h => exact (txRule_postsNothing h).trans (ih t)

theorem detectEdge_postsNothing (s : State) : PostsNothing s (detectEdge s) := by
  unfold detectEdge
  split
  · rcases fallingEdge_cases s with ⟨-, -, h⟩ | ⟨-, h⟩ <;> rw [h] <;> exact .of_eq rfl rfl
  · exact .of_eq rfl rfl

theorem settle_postsNothing (s : State) : PostsNothing s (settle s) :=
  (applyRequests_postsNothing _ s).trans <|
    (txRepeat_postsNothing 2 _).trans (detectEdge_postsNothing _)

/-! ## Step 4 -/

/-- A receive rule applies in `IDLE`, where it is the start (R85), or to a receive in progress. -/
theorem ReceiveRule.start_or_receiving (rule : ReceiveRule s t) : t = rxStart s ∨ Receiving s := by
  cases rule with
  | start => exact .inl rfl
  | deliver _ _ _ _ _ sampling => exact .inr (.inl sampling)
  | nextBit _ _ _ _ sampling => exact .inr (.inl sampling)
  | seeHigh waiting => exact .inr (.inr (.inl waiting))
  | seeEdge waiting => exact .inr (.inr (.inr waiting))
  | readAgain waiting => exact .inr (.inr waiting)
  | timeout _ waiting => exact .inr (.inr waiting)

/-- The tick that starts a receive ends without a result: the first bit is not the frame's last. -/
theorem ReceiveRule.rxResult_of_started (rule : ReceiveRule (rxStart s) t) : t.rxResult = .none := by
  cases rule with
  | start idle => nomatch idle
  | deliver _ _ _ _ _ _ decision whole =>
    rcases decision with ⟨-, ninth, -⟩ | ⟨-, undecided, -⟩
    · nomatch ninth
    · nomatch undecided.symm.trans whole
  | nextBit => rfl
  | seeHigh waiting => nomatch waiting
  | seeEdge waiting => nomatch waiting
  | readAgain waiting => nomatch waiting
  | timeout _ waiting => nomatch waiting

theorem receive_rxResult (h : receive s = .next t) (posted : t.rxResult ≠ .none) :
    t.rxResult = s.rxResult ∨ Receiving s := by
  unfold receive at h
  rcases rxRule_next s with none_due | ⟨u, due⟩
  · simp only [rxRepeat, none_due] at h
    cases h
    exact .inl rfl
  refine .inr ((rxRule_rule due).start_or_receiving.resolve_left ?_)
  rintro rfl
  rcases rxRule_next (rxStart s) with none_due | ⟨v, due'⟩
  · simp only [rxRepeat, due, none_due] at h
    cases h
    exact posted rfl
  · simp only [rxRepeat, due, due'] at h
    cases h
    exact posted (rxRule_rule due').rxResult_of_started

theorem ResultInv.rxResult_of_receiving (h : ResultInv s) (receiving : Receiving s) :
    s.rxResult = .none :=
  h.rxResult_eq_none (by rcases receiving with e | e | e <;> simp [e])

end Sys2Proof.Machine

namespace Sys2Proof.Proofs

open Sys2Proof.Machine

/-- Settles O25: a result left by a step was there after steps 0 to 3, which post none, or step 4 posted
it out of a receive, which steps 0 to 3 do not begin. That the step ends in the hand-off with a whole
frame is the invariant after it. -/
theorem resultsArePostedWhole : Obligations.ResultsArePostedWhole := by
  intro s t inv steps posted
  have after : ResultInv t := (everyStepKeepsTheInvariant s t inv steps).result
  refine ⟨after.posted.mpr posted, ?_, after.whole⟩
  rcases step_cases s with ⟨r, -, refused⟩ | ⟨-, -, resets⟩ | ⟨-, -, u, received, ends⟩
  · cases refused.symm.trans steps
  · cases resets.symm.trans steps
    exact absurd rfl posted
  · cases ends.symm.trans steps
    have settled := settle_postsNothing s
    rcases receive_rxResult received posted with kept | receiving
    · have not_cleared : (settle s).rxResult ≠ .none := kept ▸ posted
      exact .inl (kept.trans (settled.result.resolve_right not_cleared))
    · have was_receiving := settled.receiving receiving
      exact .inr ⟨inv.result.rxResult_of_receiving was_receiving, was_receiving⟩

end Sys2Proof.Proofs
end

section
/-! The wire bits of a frame (R53, R54, R57, R80) and the request that takes them (R59, R105). -/

namespace Sys2Proof

/-- `msb_bits(v, W)` has bit `W - 1 - i` of `v` at place `i` (R22). -/
theorem msbBits_getElem? (v : Nat) {w i : Nat} (h : i < w) :
    (msbBits v w)[i]? = some (v.testBit (w - 1 - i)) := by
  induction w generalizing i with
  | zero => exact absurd h (Nat.not_lt_zero i)
  | succ w ih =>
    cases i with
    | zero => rfl
    | succ i =>
      have inside : i < w := Nat.lt_of_succ_lt_succ h
      rw [msbBits, List.getElem?_cons_succ, ih inside]
      congr 2
      omega

namespace Machine

/-- A segment's bits follow those of the segments before it, with no padding (R57). -/
theorem wireBits_concat (f : ProtocolFrame) (g : Segment) :
    wireBits (f ++ [g]) = wireBits f ++ msbBits g.value g.width := by
  simp [wireBits]

end Machine

end Sys2Proof

namespace Sys2Proof.Proofs

open Sys2Proof.Machine

/-- Settles O32: an appended segment appends its bits, and those are most significant first. -/
theorem wireBitsFollowTheSegments : Obligations.WireBitsFollowTheSegments := by
  intro f g
  refine ⟨wireBits_length f, fun i inside => ?_, fun i inside => ?_⟩
  · rw [wireBits_concat, List.getElem?_append_left inside]
  · rw [wireBits_concat, List.getElem?_append_right (Nat.le_add_right _ _), Nat.add_sub_cancel_left]
    exact msbBits_getElem? g.value inside

/-- Settles O30: the request meets the conditions of acceptance, and the delay drawn is in its range. -/
theorem transmitTakesTheWholeFrame : Obligations.TransmitTakesTheWholeFrame := by
  intro f g s handoff ok valid
  have accepted := (transmitAccepted_iff f s).mpr ⟨handoff, ⟨g, ok⟩, valid⟩
  rcases transmit_cases f s with ⟨-, taken⟩ | ⟨not_accepted, -⟩
  · exact ⟨_, chooseUpTo_le _ _, taken⟩
  · exact absurd (accepted.symm.trans not_accepted) nofun

end Sys2Proof.Proofs
end

section
/-! Fields of a bit list (R22, R53 to R55, R76) read back what was written, and the decoder with the
encoder: the front of a list as an instruction, and an instruction's header and data bits. -/

namespace Sys2Proof

/-! ## Bits and their value -/

@[simp] theorem fromMsb_concat (bits : List Bit) (b : Bit) :
    fromMsb (bits ++ [b]) = 2 * fromMsb bits + b.toNat := by
  simp [fromMsb]

/-- A further bit, least significant, comes last. -/
theorem msbBits_concat (v : Nat) (b : Bit) (w : Nat) :
    msbBits (2 * v + b.toNat) (w + 1) = msbBits v w ++ [b] := by
  induction w with
  | zero => cases b <;> simp [msbBits]
  | succ w ih =>
    have half : (2 * v + b.toNat) / 2 = v := by have := Bool.toNat_lt b; omega
    rw [msbBits, ih, msbBits, Nat.testBit_succ, half, List.cons_append]

/-- `msb_bits` undoes `from_msb` (R22). -/
theorem msbBits_fromMsb (bits : List Bit) : msbBits (fromMsb bits) bits.length = bits := by
  induction bits using List.reverseRecOn with
  | nil => rfl
  | append_singleton bits b ih =>
    rw [fromMsb_concat, List.length_append, List.length_singleton, msbBits_concat, ih]

theorem fromMsb_lt (bits : List Bit) : fromMsb bits < 2 ^ bits.length := by
  have value := fromMsb_msbBits (fromMsb bits) bits.length
  rw [msbBits_fromMsb] at value
  exact value ▸ Nat.mod_lt _ (Nat.two_pow_pos _)

/-! ## Fields -/

section
variable {bits : List Bit} {k w : Nat}

/-- A field that is all there spells the bits it was read from. -/
theorem msbBits_bitField (h : k + w ≤ bits.length) :
    msbBits (bitField bits k w).toNat w = (bits.drop k).take w := by
  have width : ((bits.drop k).take w).length = w := by simp; omega
  have value : (bitField bits k w).toNat = fromMsb ((bits.drop k).take w) := by
    rw [bitField, BitVec.toNat_ofNat, Nat.mod_eq_of_lt]
    exact (fromMsb_lt _).trans_eq (congrArg (2 ^ ·) width)
  calc msbBits (bitField bits k w).toNat w
      = msbBits (fromMsb ((bits.drop k).take w)) ((bits.drop k).take w).length := by rw [value, width]
    _ = (bits.drop k).take w := msbBits_fromMsb _

/-- Bits after a field are not read. -/
theorem bitField_append_left (rest : List Bit) (h : k + w ≤ bits.length) :
    bitField (bits ++ rest) k w = bitField bits k w := by
  have inside : w ≤ (bits.drop k).length := by rw [List.length_drop]; omega
  rw [bitField, bitField, List.drop_append_of_le_length (by omega), List.take_append_of_le_length inside]

end

/-- A field stands behind another of `w` bits. -/
theorem bitField_msbBits_append (v w : Nat) (rest : List Bit) (k n : Nat) :
    bitField (msbBits v w ++ rest) (w + k) n = bitField rest k n := by
  have behind := bitField_append (msbBits v w) rest k n
  rwa [msbBits_length] at behind

/-- Byte `j` of a list of bytes on the wire. -/
theorem bitField_flatMap_msbBits (bytes : List Byte) (rest : List Bit) {j : Nat}
    (h : j < bytes.length) :
    bitField (bytes.flatMap (fun byte => msbBits byte.toNat 8) ++ rest) (8 * j) 8 = bytes[j] := by
  induction bytes generalizing j with
  | nil => exact absurd h (Nat.not_lt_zero j)
  | cons byte bytes ih =>
    rw [List.flatMap_cons, List.append_assoc]
    cases j with
    | zero => exact bitField_msbBits 8 byte _
    | succ j =>
      rw [Nat.mul_succ, Nat.add_comm, bitField_msbBits_append]
      exact ih (Nat.lt_of_succ_lt_succ h)

/-- A payload that stands at the front reads back (R55). -/
theorem blockField_blockBits (d : Block) (rest : List Bit) : blockField (blockBits d ++ rest) 0 = d := by
  apply Vector.ext
  intro j inside
  rw [blockField, Vector.getElem_ofFn, Nat.zero_add, blockBits, bitField_flatMap_msbBits _ _ (by simpa)]
  exact Vector.getElem_toList _

theorem blockField_msbBits_append (v w : Nat) (rest : List Bit) (k : Nat) :
    blockField (msbBits v w ++ rest) (w + k) = blockField rest k := by
  simp only [blockField, Nat.add_assoc, bitField_msbBits_append]

/-- `n` bytes read one after another spell the `8 n` bits they were read from. -/
theorem flatMap_ofFn_bitField (bits : List Bit) (k n : Nat) (h : k + 8 * n ≤ bits.length) :
    (List.ofFn fun j : Fin n => bitField bits (k + 8 * j.val) 8).flatMap
      (fun byte => msbBits byte.toNat 8) = (bits.drop k).take (8 * n) := by
  induction n with
  | zero => simp
  | succ n ih =>
    rw [List.ofFn_succ_last, List.flatMap_append, List.flatMap_singleton]
    simp only [Fin.val_castSucc, Fin.val_last]
    rw [ih (by omega), msbBits_bitField (by omega), ← List.drop_drop, ← List.take_add, Nat.mul_succ]

/-- A payload that is all there spells the bits it was read from. -/
theorem blockBits_blockField {bits : List Bit} {k : Nat} (h : k + 256 ≤ bits.length) :
    blockBits (blockField bits k) = (bits.drop k).take 256 := by
  rw [blockBits, blockField, Vector.toList_ofFn]
  exact flatMap_ofFn_bitField bits k 32 h

/-! ## Formats and lengths (R70) -/

theorem eight_le_bodyBits (format : FrameFormat) : 8 ≤ format.bodyBits := by
  cases format <;> decide

theorem formatOf_eq_cmd1_iff {op : Byte} :
    formatOf op = .cmd1 ↔ op ≠ 0x02#8 ∧ op ≠ 0x03#8 ∧ op ≠ 0x13#8 := by
  unfold formatOf
  split_ifs <;> simp_all

/-- A single-byte frame always ends in a stop bit (R71). -/
theorem hasStop_of_cmd1 {op : Byte} (h : formatOf op = .cmd1) (extStop : Bool) :
    hasStop extStop op = true := by
  obtain ⟨not_brd, not_bwr, not_kbd⟩ := formatOf_eq_cmd1_iff.mp h
  simp [hasStop, isExtended, not_brd, not_bwr, not_kbd]

theorem frameNeed_of_cmd1 {op : Byte} (h : formatOf op = .cmd1) (extStop : Bool) :
    frameNeed extStop op = 9 := by
  rw [frameNeed, h, hasStop_of_cmd1 h]
  rfl

/-- A frame's bits are its header and data bits and, where the format has one, the stop bit. -/
theorem take_add_toNat {bits : List Bit} {n : Nat} {stop : Bool} (h : n + stop.toNat ≤ bits.length) :
    bits.take (n + stop.toNat) = bits.take n ++ (if stop then [bits.getD n false] else []) := by
  cases stop with
  | false => simp
  | true =>
    have inside : n < bits.length := h
    rw [Bool.toNat_true, List.take_add_one, List.getElem?_eq_getElem inside]
    simp [inside]

/-! ## The front of a bit list as an instruction -/

/-- The instruction the decoder reads from the front of a list. -/
def frontInstr (bits : List Bit) : Instr :=
  Instr.ofFields (bitField bits 0 8) (bitField bits 8 8) (bitField bits 8 16) (blockField bits 24)

/-- The decoder fails only on a list that is shorter than the frame of its command byte. -/
theorem decode_eq_ok_iff {extStop : Bool} {bits : List Bit} {r : Instr × List Bit} :
    decode extStop bits = .ok r ↔ frameNeed extStop (bitField bits 0 8) ≤ bits.length
      ∧ r = (frontInstr bits, bits.drop (frameNeed extStop (bitField bits 0 8))) := by
  have nine := Machine.nine_le_frameNeed extStop (bitField bits 0 8)
  unfold decode
  split_ifs with short truncated
  · simp; omega
  · simp [truncated]
  · simp [Nat.not_lt.mp truncated, frontInstr, eq_comm]

@[simp] theorem opcode_frontInstr (bits : List Bit) : (frontInstr bits).opcode = bitField bits 0 8 :=
  Machine.opcode_ofFields ..

/-- The default row is left only the bytes without a row of their own (R78). -/
theorem wf_ofFields (op led : Byte) (addr : Half) (data : Block) :
    (Instr.ofFields op led addr data).wf = true := by
  unfold Instr.ofFields
  split_ifs <;> simp_all [Instr.wf, namedBytes]

/-- Fields that are all there spell the operand bits they were read from (R72 to R74). -/
theorem operandBits_ofFields {op : Byte} {bits : List Bit} (h : (formatOf op).bodyBits ≤ bits.length) :
    (Instr.ofFields op (bitField bits 8 8) (bitField bits 8 16) (blockField bits 24)).operandBits
      = (bits.drop 8).take ((formatOf op).bodyBits - 8) := by
  unfold Instr.ofFields
  split_ifs with identify poll blockRead blockWrite kbdStatus identifyFF
  · subst identify; rfl
  · subst poll; rfl
  · subst blockRead
    exact msbBits_bitField h
  · subst blockWrite
    have all : 280 ≤ bits.length := h
    calc msbBits (bitField bits 8 16).toNat 16 ++ blockBits (blockField bits 24)
        = (bits.drop 8).take 16 ++ ((bits.drop 8).drop 16).take 256 := by
          rw [msbBits_bitField (by omega), blockBits_blockField (by omega), List.drop_drop]
      _ = (bits.drop 8).take (16 + 256) := List.take_add.symm
  · subst kbdStatus
    exact msbBits_bitField h
  · subst identifyFF; rfl
  · rw [formatOf_eq_cmd1_iff.mpr ⟨blockRead, blockWrite, kbdStatus⟩]
    rfl

/-! ## The header and data bits of an instruction -/

/-- The rx bits of an instruction's frame without the stop bit (R71 to R74). -/
def Instr.bodyBits (i : Instr) : List Bit := msbBits i.opcode.toNat 8 ++ i.operandBits

theorem encode_eq_bodyBits (extStop stop : Bool) (i : Instr) :
    encode extStop stop i = i.bodyBits ++ (if hasStop extStop i.opcode then [stop] else []) := rfl

@[simp] theorem bitField_bodyBits_append (i : Instr) (rest : List Bit) :
    bitField (i.bodyBits ++ rest) 0 8 = i.opcode := by
  rw [Instr.bodyBits, List.append_assoc]
  exact bitField_msbBits 8 i.opcode _

@[simp] theorem bitField_bodyBits (i : Instr) : bitField i.bodyBits 0 8 = i.opcode :=
  bitField_msbBits 8 i.opcode i.operandBits

/-- An instruction's encoding has the length of its command byte (R70). -/
theorem encode_length {i : Instr} (wf : i.wf = true) (extStop stop : Bool) :
    (encode extStop stop i).length = frameNeed extStop i.opcode := by
  cases i with
  | identify => exact Laws.EncodedLength.identify wf extStop stop
  | poll => exact Laws.EncodedLength.poll wf extStop stop
  | blockRead addr => exact Laws.EncodedLength.blockRead addr wf extStop stop
  | blockWrite addr data => exact Laws.EncodedLength.blockWrite addr data wf extStop stop
  | kbdStatus led => exact Laws.EncodedLength.kbdStatus led wf extStop stop
  | identifyFF => exact Laws.EncodedLength.identifyFF wf extStop stop
  | unrecognized op => exact Laws.EncodedLength.unrecognized op wf extStop stop

theorem bodyBits_length {i : Instr} (wf : i.wf = true) :
    i.bodyBits.length = (formatOf i.opcode).bodyBits := by
  have whole := encode_length wf true true
  rw [encode_eq_bodyBits, frameNeed] at whole
  cases stop : hasStop true i.opcode <;> simp_all

/-- The front of an instruction's frame is the instruction: each operand stands where its field is read. -/
theorem frontInstr_bodyBits {i : Instr} (wf : i.wf = true) (rest : List Bit) :
    frontInstr (i.bodyBits ++ rest) = i := by
  rw [frontInstr, bitField_bodyBits_append, Instr.bodyBits, List.append_assoc]
  cases i with
  | identify => rfl
  | poll => rfl
  | blockRead addr =>
    exact congrArg Instr.blockRead ((bitField_msbBits_append _ 8 _ 0 16).trans (bitField_msbBits 16 addr _))
  | blockWrite addr data =>
    rw [Instr.operandBits, List.append_assoc]
    have addr_eq := (bitField_msbBits_append 3 8 _ 0 16).trans
      (bitField_msbBits 16 addr (blockBits data ++ rest))
    have data_eq : blockField (msbBits 3 8 ++ (msbBits addr.toNat 16 ++ (blockBits data ++ rest))) 24
        = data := by
      rw [blockField_msbBits_append 3 8 _ 16, blockField_msbBits_append _ 16 _ 0, blockField_blockBits]
    exact congrArg₂ Instr.blockWrite addr_eq data_eq
  | kbdStatus led =>
    exact congrArg Instr.kbdStatus ((bitField_msbBits_append _ 8 _ 0 8).trans (bitField_msbBits 8 led _))
  | identifyFF => rfl
  | unrecognized op =>
    simp only [Instr.wf, namedBytes, Bool.not_eq_true', List.contains_eq_mem, decide_eq_false_iff_not,
      List.mem_cons, List.not_mem_nil, or_false, not_or] at wf
    obtain ⟨h0, h1, h2, h3, h13, hFF⟩ := wf
    simp [Instr.ofFields, Instr.opcode, h0, h1, h2, h3, h13, hFF]

/-- A frame's header and data bits are those its fields spell: none of them is ignored. -/
theorem bodyBits_frontInstr {bits : List Bit}
    (h : (formatOf (bitField bits 0 8)).bodyBits ≤ bits.length) :
    (frontInstr bits).bodyBits = bits.take (formatOf (bitField bits 0 8)).bodyBits := by
  have byte := eight_le_bodyBits (formatOf (bitField bits 0 8))
  rw [Instr.bodyBits, opcode_frontInstr, msbBits_bitField (by omega), List.drop_zero, frontInstr,
    operandBits_ofFields h, ← List.take_add, Nat.add_sub_cancel' byte]

end Sys2Proof

namespace Sys2Proof.Proofs

/-- Settles O2: the encoding is a whole frame of its byte, whose front is the instruction. -/
theorem decodeOfEncodeReturnsTheInstruction : Obligations.DecodeOfEncodeReturnsTheInstruction := by
  intro extStop stop i rest wf
  have split : encode extStop stop i ++ rest
      = i.bodyBits ++ ((if hasStop extStop i.opcode then [stop] else []) ++ rest) := by
    rw [encode_eq_bodyBits, List.append_assoc]
  have op : bitField (encode extStop stop i ++ rest) 0 8 = i.opcode := by
    rw [split, bitField_bodyBits_append]
  rw [decode_eq_ok_iff, op, ← encode_length wf extStop stop, List.drop_left]
  refine ⟨by simp, congrArg (·, rest) ?_⟩
  rw [split, frontInstr_bodyBits wf]

/-- Settles O3: a frame's header and data bits are those its fields spell, and where the format has a stop
bit, the bit read there is the one to encode with. -/
theorem decodedBitsAreTheEncoding : Obligations.DecodedBitsAreTheEncoding := by
  intro extStop bits i rest decoded
  obtain ⟨long, front⟩ := decode_eq_ok_iff.mp decoded
  obtain ⟨rfl, rfl⟩ := Prod.mk.inj front
  have body : (formatOf (bitField bits 0 8)).bodyBits ≤ bits.length := (Nat.le_add_right _ _).trans long
  refine ⟨wf_ofFields .., bits.getD (formatOf (bitField bits 0 8)).bodyBits false, ?_⟩
  rw [encode_eq_bodyBits, bodyBits_frontInstr body, opcode_frontInstr]
  conv_lhs => rw [← List.take_append_drop (frameNeed extStop (bitField bits 0 8)) bits]
  exact congrArg (· ++ _) (take_add_toNat long)

/-- Settles O4: with enough bits the decoder answers, and the command byte is the one in front. -/
theorem everyCommandByteDecodes : Obligations.EveryCommandByteDecodes := by
  intro extStop op bits enough
  have op_eq : bitField (msbBits op.toNat 8 ++ bits) 0 8 = op := bitField_msbBits 8 op bits
  have long : frameNeed extStop op ≤ (msbBits op.toNat 8 ++ bits).length := by simpa using enough
  refine ⟨_, _, decode_eq_ok_iff.mpr ⟨op_eq.symm ▸ long, rfl⟩, (opcode_frontInstr _).trans op_eq, ?_⟩
  rw [op_eq, List.length_drop, Nat.sub_add_cancel long]
  simp

/-- Settles O1: the six frames are evaluated. -/
theorem knownFramesDecode : Obligations.KnownFramesDecode :=
  ⟨by decide, by decide, by decide, by decide, by decide, by decide⟩

/-- Settles O5: only the extended formats depend on `P_EXT_STOP`. -/
theorem frameLengthsByCommandByte : Obligations.FrameLengthsByCommandByte := by
  intro extStop op
  refine ⟨?_, ?_, ?_, fun not_brd not_bwr not_kbd => ?_⟩
  · rintro rfl; rfl
  · rintro rfl; rfl
  · rintro rfl; rfl
  · exact frameNeed_of_cmd1 (formatOf_eq_cmd1_iff.mpr ⟨not_brd, not_bwr, not_kbd⟩) extStop

end Sys2Proof.Proofs
end

section
/-! Loading in closed form and the bit-serial receive path (R76, R85 to R88): a field of a bit list is what
its bits leave when they shift in one by one, so one more bit is one more `rxTake`. -/

namespace Sys2Proof

/-! ## Fields as shifts -/

/-- Bits that shift in move what was there up, past the width in the end. -/
theorem toNat_foldl_shiftConcat {w : Nat} (bits : List Bit) (x : BitVec w) :
    (bits.foldl BitVec.shiftConcat x).toNat
      = (x.toNat * 2 ^ bits.length + fromMsb bits) % 2 ^ w := by
  induction bits using List.reverseRecOn with
  | nil => simp [fromMsb, Nat.mod_eq_of_lt x.isLt]
  | append_singleton bits b ih =>
    rw [List.foldl_append, List.foldl_cons, List.foldl_nil, Machine.toNat_shiftConcat_eq, ih,
      fromMsb_concat, List.length_append, List.length_singleton, Nat.pow_succ]
    rw [Nat.add_mod, Nat.mul_mod, Nat.mod_mod, ← Nat.mul_mod, ← Nat.add_mod]
    congr 1
    ring

theorem bitField_eq_foldl (bits : List Bit) (k w : Nat) :
    bitField bits k w = ((bits.drop k).take w).foldl BitVec.shiftConcat 0#w := by
  apply BitVec.eq_of_toNat_eq
  rw [toNat_foldl_shiftConcat, bitField, BitVec.toNat_ofNat, BitVec.toNat_ofNat]
  simp

section
variable {bits : List Bit} {k w : Nat}

/-- A further bit that falls in a field comes last in it. -/
theorem take_drop_concat_inside (b : Bit) (low : k ≤ bits.length) (high : bits.length < k + w) :
    ((bits ++ [b]).drop k).take w = (bits.drop k).take w ++ [b] := by
  rw [List.drop_append_of_le_length low, List.take_of_length_le (by simp; omega),
    List.take_of_length_le (by simp; omega)]

/-- A further bit that falls in front of a field or behind it is not read. -/
theorem take_drop_concat_outside (b : Bit) (outside : bits.length < k ∨ k + w ≤ bits.length) :
    ((bits ++ [b]).drop k).take w = (bits.drop k).take w := by
  rcases outside with before | behind
  · rw [List.drop_eq_nil_of_le (by simp; omega), List.drop_eq_nil_of_le before.le]
  · rw [List.drop_append_of_le_length (by omega), List.take_append_of_le_length (by simp; omega)]

end

/-- The last bits of what the header took are its low bits (R76, register view). -/
theorem extractLsb'_header {bits : List Bit} {k w : Nat} (h : k + w = min bits.length 24) :
    (bitField bits 0 24).extractLsb' 0 w = bitField bits k w := by
  have front : (bits.drop 0).take 24 = bits.take k ++ (bits.drop k).take w := by
    rw [← List.take_add, h, List.drop_zero, Nat.min_comm, ← List.take_eq_take_min]
  have small : fromMsb (bits.take k ++ (bits.drop k).take w) < 2 ^ 24 := by
    refine (fromMsb_lt _).trans_le (Nat.pow_le_pow_right (by decide) ?_)
    simp; omega
  have width : ((bits.drop k).take w).length = w := by simp; omega
  apply BitVec.eq_of_toNat_eq
  rw [BitVec.extractLsb'_toNat, bitField, front, BitVec.toNat_ofNat, Nat.mod_eq_of_lt small,
    Nat.shiftRight_zero, fromMsb_append, width, Nat.mul_add_mod_self_right, bitField, BitVec.toNat_ofNat]

/-- Only the fields of a byte's format are read. -/
theorem ofFields_congr {op led led' : Byte} {addr addr' : Half} {data data' : Block}
    (led_eq : op = 0x13#8 → led = led') (addr_eq : op = 0x02#8 ∨ op = 0x03#8 → addr = addr')
    (data_eq : op = 0x03#8 → data = data') :
    Instr.ofFields op led addr data = Instr.ofFields op led' addr' data' := by
  unfold Instr.ofFields
  split_ifs with _ _ blockRead blockWrite kbdStatus
  · rfl
  · rfl
  · rw [addr_eq (.inl blockRead)]
  · rw [addr_eq (.inr blockWrite), data_eq blockWrite]
  · rw [led_eq kbdStatus]
  · rfl
  · rfl

namespace Machine

/-! ## The registers of a loaded frame -/

/-- The bit after the command byte leaves it one place up in the header (R88). -/
theorem commandByte_shiftHeader (h : Header) (b : Bit) :
    commandByte (shiftHeader h b) = h.extractLsb' 0 8 := by
  apply BitVec.eq_of_toNat_eq
  rw [toNat_commandByte, shiftHeader, toNat_shiftConcat_eq, BitVec.extractLsb'_toNat, Nat.shiftRight_zero]
  have bit := Bool.toNat_lt b
  omega

section
variable {bits : List Bit} {s : State}

/-- Before the 9th bit only the count, the header and the payload are loaded. -/
theorem loadBits_of_lt (h : bits.length < 9) : loadBits bits s = { rxStart s with
    nbits := bits.length, hdr := bitField bits 0 24, data := Vector.ofFn (loadByte bits s.data) } := by
  rw [loadBits, if_pos h, if_pos h]
  rfl

/-- From the 9th bit on the length of the command byte is decided. -/
theorem loadBits_of_le (h : 9 ≤ bits.length) : loadBits bits s = { rxStart s with
    nbits := bits.length, need := some (frameNeed s.cfg.extStop (bitField bits 0 8))
    hdr := bitField bits 0 24, rxOp := bitField bits 0 8
    data := Vector.ofFn (loadByte bits s.data) } := by
  rw [loadBits, if_neg (Nat.not_lt.mpr h), if_neg (Nat.not_lt.mpr h)]

theorem bitField_header_concat (b : Bit) (h : bits.length < 24) :
    bitField (bits ++ [b]) 0 24 = shiftHeader (bitField bits 0 24) b := by
  rw [bitField_eq_foldl, take_drop_concat_inside b (Nat.zero_le _) (by omega), List.foldl_append,
    ← bitField_eq_foldl]
  rfl

/-- A header bit leaves the payload alone. -/
theorem loadByte_concat_header (b : Bit) (old : Block) (h : bits.length < 24) :
    loadByte (bits ++ [b]) old = loadByte bits old := by
  funext j
  rw [loadByte, take_drop_concat_outside b (.inl (by omega)), loadByte]

/-- A payload bit shifts into its byte and no other. -/
theorem ofFn_loadByte_concat (b : Bit) (old : Block) (low : 24 ≤ bits.length) (high : bits.length < 280) :
    Vector.ofFn (loadByte (bits ++ [b]) old)
      = shiftData (Vector.ofFn (loadByte bits old)) ((bits.length + 1 - 25) / 8) b := by
  apply Vector.ext
  intro j inside
  rw [Vector.getElem_ofFn, loadByte]
  by_cases own : j = (bits.length + 1 - 25) / 8
  · subst own
    rw [shiftData_same _ _ inside, take_drop_concat_inside b (by dsimp; omega) (by dsimp; omega),
      List.foldl_append, Vector.getElem_ofFn]
    rfl
  · rw [shiftData_other _ _ inside own, take_drop_concat_outside b (by dsimp; omega), Vector.getElem_ofFn]
    rfl

/-- A byte whose bits are all there is the field of those bits, whatever it held. -/
theorem loadByte_eq_bitField (old : Block) (j : Fin 32) (h : 24 + 8 * j.val + 8 ≤ bits.length) :
    loadByte bits old j = bitField bits (24 + 8 * j.val) 8 := by
  have width : ((bits.drop (24 + 8 * j.val)).take 8).length = 8 := by simp; omega
  apply BitVec.eq_of_toNat_eq
  rw [loadByte, toNat_foldl_shiftConcat, width, Nat.mul_add_mod_self_right, bitField, BitVec.toNat_ofNat]

theorem ofFn_loadByte_eq_blockField (old : Block) (h : 280 ≤ bits.length) :
    Vector.ofFn (loadByte bits old) = blockField bits 24 := by
  rw [blockField]
  congr 1
  funext j
  exact loadByte_eq_bitField old j (by omega)

theorem loadBits_nil : loadBits [] s = rxStart s := by
  have payload : Vector.ofFn (loadByte [] s.data) = s.data := by
    apply Vector.ext
    intro j inside
    simp [loadByte]
  rw [loadBits_of_lt (by decide), payload]
  rfl

/-! ## Bit by bit -/

/-- The bits are header and data bits of one frame: from the 9th on they do not pass the format's length. -/
def WithinBody (bits : List Bit) : Prop :=
  9 ≤ bits.length → bits.length ≤ (formatOf (bitField bits 0 8)).bodyBits

theorem WithinBody.of_append {rest : List Bit} (h : WithinBody (bits ++ rest)) : WithinBody bits := by
  intro nine
  have body := h (by simp; omega)
  rw [bitField_append_left rest (by omega), List.length_append] at body
  omega

/-- A header or data bit is not the frame's stop bit. -/
theorem not_stopBit_of_le_bodyBits {extStop : Bool} {op : Byte} {n : Nat}
    (h : n ≤ (formatOf op).bodyBits) : hasStop extStop op = false ∨ some (frameNeed extStop op) ≠ some n := by
  unfold frameNeed
  cases hasStop extStop op
  · exact .inl rfl
  · refine .inr fun e => ?_
    have last := Option.some.inj e
    rw [Bool.toNat_true] at last
    omega

/-- One more bit loaded is one more bit taken (R87, R88). -/
theorem loadBits_concat {b : Bit} (body : WithinBody (bits ++ [b])) :
    loadBits (bits ++ [b]) s = rxTake b (loadBits bits s) := by
  have count : (bits ++ [b]).length = bits.length + 1 := by simp
  rcases Nat.lt_or_ge bits.length 8 with early | decided
  · rw [loadBits_of_lt (bits := bits) (by omega), rxTake_other (.inr (by dsimp; omega)),
      rxStore_header (.inr (by simp [rxStart])) (by dsimp; omega), loadBits_of_lt (by omega), count,
      bitField_header_concat b (by omega), loadByte_concat_header b _ (by omega)]
  rcases decided.eq_or_lt with ninth | later
  · have op : commandByte (shiftHeader (bitField bits 0 24) b) = bitField (bits ++ [b]) 0 8 := by
      rw [commandByte_shiftHeader, extractLsb'_header (k := 0) (by omega),
        bitField_append_left [b] (by omega)]
    rw [loadBits_of_lt (bits := bits) (by omega), rxTake_ninth rfl (by dsimp; omega),
      rxStore_header (.inr (by simp [rxStart])) (by dsimp; omega), loadBits_of_le (by omega), count,
      bitField_header_concat b (by omega), loadByte_concat_header b _ (by omega), ← op]
    rfl
  · have op : bitField (bits ++ [b]) 0 8 = bitField bits 0 8 := bitField_append_left [b] (by omega)
    have inside := body (by omega)
    rw [count, op] at inside
    rw [loadBits_of_le (bits := bits) later, rxTake_other (.inl (by simp)), loadBits_of_le (by omega), count, op]
    rcases Nat.lt_or_ge bits.length 24 with header | payload
    · rw [rxStore_header (not_stopBit_of_le_bodyBits inside) (by dsimp; omega),
        bitField_header_concat b header, loadByte_concat_header b _ header]
    · have longest : (formatOf (bitField bits 0 8)).bodyBits ≤ 280 := by
        cases formatOf (bitField bits 0 8) <;> decide
      rw [rxStore_payload (not_stopBit_of_le_bodyBits inside) (by dsimp; omega),
        bitField_append_left [b] (by omega), ofFn_loadByte_concat b _ payload (by omega)]

end

end Machine

end Sys2Proof

namespace Sys2Proof.Proofs

open Sys2Proof.Machine

/-- Settles O13, by induction on the bits from the last. -/
theorem loadedBitsAreTheBitsReceived : Obligations.LoadedBitsAreTheBitsReceived := by
  intro s bits body
  induction bits using List.reverseRecOn with
  | nil => exact loadBits_nil
  | append_singleton bits b ih =>
    have within : WithinBody (bits ++ [b]) := body
    rw [loadBits_concat within, ih within.of_append, List.foldl_append]
    rfl

end Sys2Proof.Proofs
end

section
/-! The receive registers at the end of a frame (R86 to R88, R92): with an instruction's header and data
bits loaded, and its stop bit taken where it has one, they spell the instruction. -/

namespace Sys2Proof.Machine

variable {i : Instr} {s t : State}

/-- The bits of a receive, taken one by one from its start (R86). -/
theorem foldl_rxTake_eq_loadBits {bits : List Bit} (body : WithinBody bits) :
    bits.foldl (fun t b => rxTake b t) (rxStart s) = loadBits bits s :=
  (Proofs.loadedBitsAreTheBitsReceived s bits body).symm

theorem withinBody_bodyBits (wf : i.wf = true) : WithinBody i.bodyBits := by
  intro _
  rw [bodyBits_length wf, bitField_bodyBits]

theorem foldl_rxTake_cfg (bits : List Bit) :
    (bits.foldl (fun t b => rxTake b t) (rxStart s)).cfg = s.cfg :=
  (SameTick.foldl (fun t b => rxTake_sameTick b t) bits (rxStart s)).cfg

/-- Before the length of the command byte is reached the frame is not whole (R86). -/
theorem frameWhole_loadBits_of_lt {bits : List Bit}
    (h : 9 ≤ bits.length → bits.length < frameNeed s.cfg.extStop (bitField bits 0 8)) :
    (loadBits bits s).frameWhole = false := by
  rw [State.frameWhole, beq_eq_false_iff_ne]
  rcases Nat.lt_or_ge bits.length 9 with early | decided
  · simp [loadBits_of_lt early, rxStart]
  · simpa [loadBits_of_le decided] using (h decided).ne'

/-- The receive registers hold the whole frame of an instruction. -/
structure HoldsFrame (i : Instr) (t : State) : Prop where
  need : t.need = some (frameNeed t.cfg.extStop i.opcode)
  nbits : t.nbits = frameNeed t.cfg.extStop i.opcode
  rxOp : t.rxOp = i.opcode
  fetched : t.fetched = i

theorem HoldsFrame.frameWhole (h : HoldsFrame i t) : t.frameWhole = true := by
  rw [State.frameWhole, h.need, h.nbits, beq_self_eq_true]

/-- The instruction is fetched when the command byte is latched and the fields of its format hold its
header and data bits (R92). -/
theorem fetched_eq_of_bodyBits (wf : i.wf = true) {old : Block} (rxOp : t.rxOp = i.opcode)
    (hdr : formatOf i.opcode ≠ .cmd1 → t.hdr = bitField i.bodyBits 0 24)
    (data : t.data = Vector.ofFn (loadByte i.bodyBits old)) : t.fetched = i := by
  have front := frontInstr_bodyBits wf []
  rw [List.append_nil, frontInstr, bitField_bodyBits] at front
  have length := bodyBits_length wf
  rw [State.fetched, rxOp, data]
  conv_rhs => rw [← front]
  refine ofFields_congr (fun kbd => ?_) (fun block => ?_) (fun write => ?_)
  · rw [kbd] at length hdr
    rw [hdr (by decide)]
    exact extractLsb'_header (by rw [length]; decide)
  · rcases block with block | block
    all_goals
      rw [block] at length hdr
      rw [hdr (by decide)]
      exact extractLsb'_header (by rw [length]; decide)
  · rw [write] at length
    exact ofFn_loadByte_eq_blockField old length.ge

/-- The last bit of an instruction's encoding leaves its whole frame in the receive registers (R88). -/
theorem holdsFrame_encode (wf : i.wf = true) (stop : Bit) :
    HoldsFrame i ((encode s.cfg.extStop stop i).foldl (fun t b => rxTake b t) (rxStart s)) := by
  have length := bodyBits_length wf
  rw [encode_eq_bodyBits, List.foldl_append, foldl_rxTake_eq_loadBits (withinBody_bodyBits wf)]
  by_cases single : formatOf i.opcode = .cmd1
  · -- the stop bit is the 9th bit and decides the length
    rw [single, FrameFormat.bodyBits] at length
    have op : commandByte (shiftHeader (bitField i.bodyBits 0 24) stop) = i.opcode := by
      rw [commandByte_shiftHeader, extractLsb'_header (k := 0) (by omega), bitField_bodyBits]
    rw [hasStop_of_cmd1 single, if_pos rfl, List.foldl_cons, List.foldl_nil, loadBits_of_lt (by omega),
      rxTake_ninth rfl (by dsimp; omega), rxStore_header (.inr (by simp [rxStart])) (by dsimp; omega)]
    exact {
      need := congrArg (fun op => some (frameNeed s.cfg.extStop op)) op
      nbits := (congrArg (· + 1) length).trans (frameNeed_of_cmd1 single _).symm
      rxOp := op
      fetched := fetched_eq_of_bodyBits wf op (absurd single) rfl }
  · have decided : 9 ≤ i.bodyBits.length := by
      rw [length]
      cases format : formatOf i.opcode with
      | cmd1 => exact absurd format single
      | _ => decide
    rw [loadBits_of_le decided, bitField_bodyBits]
    cases stopped : hasStop s.cfg.extStop i.opcode with
    | false =>
      exact {
        need := rfl
        nbits := length.trans (by simp [frameNeed, stopped])
        rxOp := rfl
        fetched := fetched_eq_of_bodyBits wf rfl (fun _ => rfl) rfl }
    | true =>
      have need_eq : frameNeed s.cfg.extStop i.opcode = i.bodyBits.length + 1 := by
        rw [frameNeed, stopped, length, Bool.toNat_true]
      rw [if_pos rfl, List.foldl_cons, List.foldl_nil, rxTake_other (.inl (by simp)),
        rxStore_stopBit (congrArg some need_eq) stopped]
      exact {
        need := rfl
        nbits := need_eq.symm
        rxOp := rfl
        fetched := fetched_eq_of_bodyBits wf rfl (fun _ => rfl) rfl }

section
variable {extStop stop : Bool} {k : Nat}

/-- A proper part of an instruction's encoding has none of its stop bit. -/
theorem take_encode_of_lt (h : k < (encode extStop stop i).length) :
    (encode extStop stop i).take k = i.bodyBits.take k := by
  rw [encode_eq_bodyBits] at h ⊢
  refine List.take_append_of_le_length (Nat.le_of_lt_succ (h.trans_le ?_))
  rw [List.length_append]
  split <;> simp

theorem withinBody_take_encode (wf : i.wf = true) (h : k < (encode extStop stop i).length) :
    WithinBody ((encode extStop stop i).take k) := by
  have body := withinBody_bodyBits wf
  rw [← List.take_append_drop k i.bodyBits] at body
  exact take_encode_of_lt h ▸ body.of_append

end

/-- No proper part of an instruction's encoding is a whole frame. -/
theorem frameWhole_take_encode (wf : i.wf = true) {stop : Bit} {k : Nat}
    (h : k < (encode s.cfg.extStop stop i).length) :
    (((encode s.cfg.extStop stop i).take k).foldl (fun t b => rxTake b t) (rxStart s)).frameWhole
      = false := by
  rw [foldl_rxTake_eq_loadBits (withinBody_take_encode wf h)]
  refine frameWhole_loadBits_of_lt fun nine => ?_
  have op := bitField_bodyBits i
  rw [← List.take_append_drop k i.bodyBits, ← take_encode_of_lt h,
    bitField_append_left _ (by omega)] at op
  rw [op, ← encode_length wf _ stop, List.length_take]
  exact (Nat.min_le_left _ _).trans_lt h

end Sys2Proof.Machine

namespace Sys2Proof.Proofs

open Sys2Proof.Machine

/-- Settles O12: every proper part of the encoding is loaded short of the length that its command byte
decides, and all of it leaves the whole frame. -/
theorem receivedBitsSpellTheInstruction : Obligations.ReceivedBitsSpellTheInstruction := by
  intro s stop i wf
  have holds := holdsFrame_encode (s := s) wf stop
  refine ⟨fun k shorter => frameWhole_take_encode wf shorter, holds.frameWhole, holds.fetched,
    holds.rxOp, ?_⟩
  rw [holds.nbits, foldl_rxTake_cfg, encode_length wf]

end Sys2Proof.Proofs
end

section
/-! A tick in which a bit is sampled (R86): steps 0 to 3 of R132 leave a receive in progress alone, and
step 4 is the sample and no second rule. -/

namespace Sys2Proof.Machine

variable {s t u : State}

/-! ## The receive registers -/

/-- The parameters and the registers that taking a bit reads and writes are the same (R35 to R39). -/
structure SameRegisters (s t : State) : Prop where
  cfg : t.cfg = s.cfg
  nbits : t.nbits = s.nbits
  need : t.need = s.need
  hdr : t.hdr = s.hdr
  rxOp : t.rxOp = s.rxOp
  data : t.data = s.data

theorem SameRegisters.rxStore (h : SameRegisters s t) (b : Bit) :
    SameRegisters (rxStore b s) (rxStore b t) := by
  unfold Machine.rxStore State.frameWhole
  rw [h.cfg, h.nbits, h.need, h.rxOp, h.hdr, h.data]
  split_ifs
  · exact h
  · exact ⟨rfl, rfl, rfl, rfl, rfl, rfl⟩
  · exact ⟨rfl, rfl, rfl, rfl, rfl, rfl⟩

/-- Taking a bit depends on the receive registers alone. -/
theorem SameRegisters.rxTake (h : SameRegisters s t) (b : Bit) :
    SameRegisters (rxTake b s) (rxTake b t) := by
  have counted : SameRegisters { s with nbits := s.nbits + 1 } { t with nbits := t.nbits + 1 } :=
    { h with nbits := congrArg (· + 1) h.nbits }
  have stored := counted.rxStore b
  by_cases ninth : s.need = none ∧ s.nbits + 1 = 9
  · obtain ⟨undecided, count⟩ := ninth
    rw [rxTake_ninth undecided count, rxTake_ninth (h.need.trans undecided) (h.nbits ▸ count),
      rxClassify, rxClassify, stored.hdr]
    exact { stored with
      need := by rw [decideLength_need, decideLength_need, stored.cfg]
      rxOp := rfl }
  · have other : s.need ≠ none ∨ s.nbits + 1 ≠ 9 := not_and_or.mp ninth
    rw [rxTake_other other, rxTake_other (by rwa [h.need, h.nbits])]
    exact stored

theorem SameRegisters.frameWhole (h : SameRegisters s t) : t.frameWhole = s.frameWhole := by
  rw [State.frameWhole, h.need, h.nbits, State.frameWhole]

theorem SameRegisters.holdsFrame {i : Instr} (h : SameRegisters s t) (holds : HoldsFrame i s) :
    HoldsFrame i t where
  need := by rw [h.need, h.cfg, holds.need]
  nbits := by rw [h.nbits, h.cfg, holds.nbits]
  rxOp := h.rxOp.trans holds.rxOp
  fetched := by rw [State.fetched, h.rxOp, h.hdr, h.data]; exact holds.fetched

/-! ## Steps 0 to 3 during a receive -/

/-- The whole receive path and the drive of the line are the same. -/
structure SameReceive (s t : State) : Prop extends SameRegisters s t where
  fsm : t.fsm = s.fsm
  tBase : t.tBase = s.tBase
  waitN : t.waitN = s.waitN
  tPhase : t.tPhase = s.tPhase
  rxResult : t.rxResult = s.rxResult
  devLow : t.devLow = s.devLow

namespace SameReceive

@[refl] theorem refl (s : State) : SameReceive s s :=
  ⟨⟨rfl, rfl, rfl, rfl, rfl, rfl⟩, rfl, rfl, rfl, rfl, rfl, rfl⟩

@[trans] theorem trans (h : SameReceive s t) (g : SameReceive t u) : SameReceive s u where
  cfg := g.cfg.trans h.cfg
  nbits := g.nbits.trans h.nbits
  need := g.need.trans h.need
  hdr := g.hdr.trans h.hdr
  rxOp := g.rxOp.trans h.rxOp
  data := g.data.trans h.data
  fsm := g.fsm.trans h.fsm
  tBase := g.tBase.trans h.tBase
  waitN := g.waitN.trans h.waitN
  tPhase := g.tPhase.trans h.tPhase
  rxResult := g.rxResult.trans h.rxResult
  devLow := g.devLow.trans h.devLow

theorem of_flushWrites (h : flushWrites s t) : SameReceive s t := by
  obtain ⟨_, _, _, _, _, -, -, rfl⟩ := h
  exact { SameReceive.refl s with }

end SameReceive

/-- Outside the hand-off both requests of the dispatcher are refused (R107, R124). -/
theorem dispatcherRequest_of_ne_handoff (elsewhere : s.fsm ≠ .handoff) (r : DispatcherRequest) :
    dispatcherRequest s r = refuseRequest s := by
  cases r with
  | transmit f =>
    rcases transmit_cases f s with ⟨accepted, -⟩ | ⟨-, refused⟩
    · exact absurd ((transmitAccepted_iff f s).mp accepted).1 elsewhere
    · exact refused
  | release => exact (release_cases s).elim (fun h => absurd h.1 elsewhere) (·.2)

theorem dispatcherRequests_sameReceive (elsewhere : s.fsm ≠ .handoff) (rs : List DispatcherRequest) :
    SameReceive s (rs.foldl dispatcherRequest s) := by
  induction rs generalizing s with
  | nil => exact .refl s
  | cons r rs ih =>
    rw [List.foldl_cons, dispatcherRequest_of_ne_handoff elsewhere]
    exact .trans (t := refuseRequest s) { SameReceive.refl s with } (ih elsewhere)

theorem applyRequests_sameReceive (elsewhere : s.fsm ≠ .handoff) (inp : TickInput) :
    SameReceive s (applyRequests inp s) :=
  (dispatcherRequests_sameReceive elsewhere inp.dispatcher).trans <|
    .of_flushWrites (flushWrites_trans (maskResume_writes _) (flushRequests_writes inp.flush _))

theorem serialize_of_ne_tx (elsewhere : s.fsm ≠ .tx) : serialize s = s := by
  simp [serialize, txRepeat, txRule_none_of_ne elsewhere]

theorem detectEdge_sameReceive (s : State) : SameReceive s (detectEdge s) := by
  unfold detectEdge
  split
  · rcases fallingEdge_cases s with ⟨-, -, h⟩ | ⟨-, h⟩ <;> rw [h]
    all_goals exact { SameReceive.refl s with }
  · exact { SameReceive.refl s with }

/-- Requests, serializer and edge detector leave a receive in progress alone (R107, R124, R126). -/
theorem settle_sameReceive (receiving : Receiving s) : SameReceive s (settle s) := by
  have not_handoff : s.fsm ≠ .handoff := by rcases receiving with h | h | h <;> simp [h]
  have not_tx : s.fsm ≠ .tx := by rcases receiving with h | h | h <;> simp [h]
  have requests := applyRequests_sameReceive not_handoff s.env.input
  rw [settle, serialize_of_ne_tx (requests.fsm ▸ not_tx)]
  exact requests.trans (detectEdge_sameReceive _)

/-- The line of the tick is the same before and after steps 0 to 3 of a receive (R27). -/
theorem line_settle (receiving : Receiving s) : (settle s).line = s.line := by
  have tick := settle_sameTick s
  rw [State.line, (settle_sameReceive receiving).devLow, Env.input, tick.inputs, tick.inputIx]
  rfl

/-! ## The sample -/

/-- When a sample is due it is all of step 4 (R86): neither the hand-off nor the phase it begins has a rule
that holds in the same tick. -/
theorem receive_eq_rxSample (poll : 1 ≤ s.cfg.pollTicks) (sampling : s.fsm = .rxSample)
    (due : s.now = s.tBase + s.cfg.sampleDelay) : receive s = rxSample s := by
  have rule : rxRule s = some (rxSample s) := by simp [rxRule, sampling, sampleDue, due]
  obtain ⟨t, sampled⟩ : ∃ t, rxSample s = .next t := by
    rcases rxSample_cases s with ⟨-, h⟩ | ⟨-, h⟩ <;> exact ⟨_, h⟩
  have quiet : rxRule t = none :=
    ((rxSample_rule sampling sampled).quiet poll).resolve_right fun h => h.1 sampling
  simp [receive, rxRepeat, rule, sampled, quiet]

/-- `u` is `s` in the middle of its tick, with the bit on the line just taken. -/
structure SampledBit (s u : State) : Prop extends SameRegisters (rxTake s.line s) u where
  now : u.now = s.now
  tBase : u.tBase = s.tBase
  rxResult : u.rxResult = s.rxResult

theorem sampledBit_settle (receiving : Receiving s) :
    SampledBit s (rxTake (settle s).line (settle s)) := by
  have same := settle_sameReceive receiving
  obtain ⟨_, _, _, _, -, frame⟩ := rxTake_frame s.line (settle s)
  rw [line_settle receiving]
  refine { same.toSameRegisters.rxTake s.line with now := ?_, tBase := ?_, rxResult := ?_ }
  · rw [frame, (settle_sameTick s).now]
  · rw [frame, same.tBase]
  · rw [frame, same.rxResult]

/-- The tick of a sample: the bit is taken from the line, and either the frame is whole and the fetched
instruction completes, or phase A begins. -/
theorem step_of_sample (accepted : configProblem s.cfg = none) (no_reset : s.env.input.reset = false)
    (sampling : s.fsm = .rxSample) (due : s.now = s.tBase + s.cfg.sampleDelay) :
    ∃ u, SampledBit s u ∧
      ((u.frameWhole = true
          ∧ step s = .next (advanceTime (completeCommand u.fetched.opcode u.fetched.frame u)))
        ∨ (u.frameWhole = false ∧ step s = .next (advanceTime (enterWaitHigh u)))) := by
  have same := settle_sameReceive (.inl sampling)
  have poll : 1 ≤ s.cfg.pollTicks :=
    ((parametersInRange_iff s.cfg).mp ((configProblem_none_iff s.cfg).mp accepted).1).2.2.1
  have sample : receive (settle s) = rxSample (settle s) :=
    receive_eq_rxSample (by rwa [same.cfg]) (same.fsm.trans sampling)
      (by rw [(settle_sameTick s).now, same.tBase, same.cfg, due])
  rcases step_cases s with ⟨r, problem, -⟩ | ⟨-, reset, -⟩ | ⟨-, -, t, received, steps⟩
  · cases accepted.symm.trans problem
  · cases no_reset.symm.trans reset
  · refine ⟨_, sampledBit_settle (.inl sampling), ?_⟩
    refine (rxSample_cases (settle s)).imp (fun h => ⟨h.1, ?_⟩) fun h => ⟨h.1, ?_⟩
    all_goals
      rw [sample] at received
      cases received.symm.trans h.2
      exact steps

/-! ## The last bit -/

/-- Waiting for the last bit changes the time and the line, and no receive register. -/
theorem awaitLastBit_sameRegisters (bits : List Bit) (b : Bit) (s : State) :
    SameRegisters (loadBits bits s) (awaitLastBit bits b s) := ⟨rfl, rfl, rfl, rfl, rfl, rfl⟩

theorem line_awaitLastBit (bits : List Bit) (b : Bit) (s : State) : (awaitLastBit bits b s).line = b := by
  simp [State.line, awaitLastBit, Env.input]

/-- The last bit on the line completes the frame in the receive registers. -/
theorem holdsFrame_awaitLastBit {i : Instr} (wf : i.wf = true) (stop : Bit) (s : State) :
    HoldsFrame i (rxTake ((encode s.cfg.extStop stop i).getLastD false)
      (awaitLastBit (encode s.cfg.extStop stop i).dropLast
        ((encode s.cfg.extStop stop i).getLastD false) s)) := by
  have whole := holdsFrame_encode (s := s) wf stop
  have nine := nine_le_frameNeed s.cfg.extStop i.opcode
  rw [← encode_length wf _ stop] at nine
  generalize bits_eq : encode s.cfg.extStop stop i = bits at nine whole ⊢
  have nonempty : bits ≠ [] := List.ne_nil_of_length_pos (by omega)
  have within : WithinBody bits.dropLast := by
    rw [List.dropLast_eq_take, ← bits_eq]
    exact withinBody_take_encode wf (by rw [bits_eq]; omega)
  have last : bits.getLastD false = bits.getLast nonempty := by
    rw [List.getLastD_eq_getLast?, List.getLast?_eq_some_getLast nonempty, Option.getD_some]
  rw [← List.dropLast_append_getLast nonempty, List.foldl_append, foldl_rxTake_eq_loadBits within,
    ← last] at whole
  exact ((awaitLastBit_sameRegisters _ _ s).rxTake _).holdsFrame whole

end Sys2Proof.Machine

namespace Sys2Proof.Proofs

open Sys2Proof.Machine

/-- Settles O17: the sample is all that happens to the receive in its tick. -/
theorem sampleTakesTheLineLevel : Obligations.SampleTakesTheLineLevel := by
  intro s accepted no_reset sampling due unfinished
  obtain ⟨u, sampled, ⟨whole, -⟩ | ⟨-, steps⟩⟩ := step_of_sample accepted no_reset sampling due
  · rw [sampled.toSameRegisters.frameWhole, unfinished] at whole
    cases whole
  · obtain ⟨_, _, _, _, -, counted⟩ := rxTake_frame s.line s
    have count : (rxTake s.line s).nbits = s.nbits + 1 := by rw [counted]
    exact ⟨_, steps, rfl, rfl, sampled.now, sampled.nbits.trans count, sampled.hdr, sampled.data,
      sampled.rxOp, sampled.need, sampled.rxResult, sampled.tBase⟩

/-- Settles O14: the sample of the last bit leaves the whole frame of the instruction, which is fetched and
completes. -/
theorem lastBitDeliversTheFrame : Obligations.LastBitDeliversTheFrame := by
  intro s stop i accepted wf
  have holds := holdsFrame_awaitLastBit wf stop s
  rw [encode_length wf]
  generalize (encode s.cfg.extStop stop i).dropLast = bits,
    (encode s.cfg.extStop stop i).getLastD false = b at holds ⊢
  obtain ⟨u, sampled, outcome⟩ := step_of_sample (s := awaitLastBit bits b s) accepted rfl rfl rfl
  have registers := sampled.toSameRegisters
  rw [line_awaitLastBit] at registers
  have whole := registers.holdsFrame holds
  have cfg : u.cfg = s.cfg := registers.cfg.trans (rxTake_sameTick b (awaitLastBit bits b s)).cfg
  obtain ⟨-, steps⟩ | ⟨unfinished, -⟩ := outcome
  · rw [whole.fetched] at steps
    exact ⟨_, steps, rfl, rfl, rfl, whole.nbits.trans (by rw [cfg]), congrArg some whole.nbits.symm⟩
  · cases whole.frameWhole.symm.trans unfinished

end Sys2Proof.Proofs
end

section
/-! The meanings of the commands (R95 to R101): each is `completeCommand` of its own byte and frame, which
writes four fields. -/

namespace Sys2Proof.Machine

/-- All that a command writes: its byte, its length, its frame and the hand-off (R95 to R101). -/
theorem exec_writes (i : Instr) (s : State) : exec i s = .next { s with
    rxOp := i.opcode, need := some (frameNeed s.cfg.extStop i.opcode)
    rxResult := .ok i.frame, fsm := .handoff } :=
  exec_eq i s

/-- A byte without a row of its own is none of the extended ones, so its format is the single byte's. -/
theorem formatOf_unrecognized {op : Byte} (wf : (Instr.unrecognized op).wf = true) :
    formatOf op = .cmd1 := by
  unfold formatOf
  split_ifs with brd bwr kbd
  · subst brd; exact absurd wf (by decide)
  · subst bwr; exact absurd wf (by decide)
  · subst kbd; exact absurd wf (by decide)
  · rfl

end Sys2Proof.Machine

namespace Sys2Proof.Proofs

open Sys2Proof.Machine

/-- Settles O6: the length of a byte with the single byte's format is 9, which for the three named bytes is
evaluated. -/
theorem singleByteCommandsComplete : Obligations.SingleByteCommandsComplete := by
  intro s
  refine ⟨exec_writes .identify s, exec_writes .poll s, exec_writes .identifyFF s, fun op wf => ?_⟩
  rw [exec_writes, Instr.opcode, frameNeed_of_cmd1 (formatOf_unrecognized wf)]
  rfl

/-- Settles O7: the byte's length is evaluated. -/
theorem blockReadCompletes : Obligations.BlockReadCompletes :=
  fun addr s => exec_writes (.blockRead addr) s

/-- Settles O8: the byte's length is evaluated. -/
theorem blockWriteCompletes : Obligations.BlockWriteCompletes :=
  fun addr data s => exec_writes (.blockWrite addr data) s

/-- Settles O9: the byte's length is evaluated. -/
theorem kbdStatusCompletes : Obligations.KbdStatusCompletes :=
  fun led s => exec_writes (.kbdStatus led) s

/-- Settles O10: a command writes the four fields and no other. -/
theorem commandsLeaveAllElse : Obligations.CommandsLeaveAllElse := by
  intro i s t runs
  cases (exec_writes i s).symm.trans runs
  rfl

end Sys2Proof.Proofs
end

section
/-! Step 4 of R132 in the tick of a sample or of a phase's read (R86, R89, R90): which rule is due, and
that it is the last of its tick but for a sample that follows at once (`P_SAMPLE_DELAY` 0). -/

namespace Sys2Proof.Machine

variable {s t u : State}

/-! ## One tick -/

theorem pollTicks_pos (accepted : configProblem s.cfg = none) : 1 ≤ s.cfg.pollTicks :=
  ((parametersInRange_iff s.cfg).mp ((configProblem_none_iff s.cfg).mp accepted).1).2.2.1

theorem waitBudget_pos (accepted : configProblem s.cfg = none) : 1 ≤ s.cfg.waitBudget :=
  ((parametersInRange_iff s.cfg).mp ((configProblem_none_iff s.cfg).mp accepted).1).2.1

/-- A tick without a reset is steps 0 to 3, then step 4, then the advance of time (R132). -/
theorem step_of_receive (accepted : configProblem s.cfg = none) (no_reset : s.env.input.reset = false)
    (received : receive (settle s) = .next t) : step s = .next (advanceTime t) := by
  rcases step_cases s with ⟨r, problem, -⟩ | ⟨-, reset, -⟩ | ⟨-, -, t', received', steps⟩
  · cases accepted.symm.trans problem
  · cases no_reset.symm.trans reset
  · cases received.symm.trans received'
    exact steps

/-- The line is the same in two states of a tick with the same drive of the device (R27). -/
theorem SameTick.line (tick : SameTick s t) (drive : t.devLow = s.devLow) : t.line = s.line := by
  rw [State.line, Env.input, tick.inputs, tick.inputIx, drive]
  rfl

/-! ## How many rules apply -/

theorem receive_of_quiet (quiet : rxRule s = none) : receive s = .next s := by
  simp [receive, rxRepeat, quiet]

theorem receive_of_rule (due : rxRule s = some (.next t)) (quiet : rxRule t = none) :
    receive s = .next t := by
  simp [receive, rxRepeat, due, quiet]

/-- An edge or a start whose sample is due in the same tick is followed by that sample. -/
theorem receive_of_rule_of_sample (due : rxRule s = some (.next t)) (sampling : t.fsm = .rxSample)
    (at_ : t.now = t.tBase + t.cfg.sampleDelay) : receive s = rxSample t := by
  have sample : rxRule t = some (rxSample t) := by simp [rxRule, sampling, sampleDue, at_]
  rcases rxSample_cases t with ⟨-, h⟩ | ⟨-, h⟩ <;> simp [receive, rxRepeat, due, sample, h]

/-- With a positive sample delay the edge or the start is alone in its tick. -/
theorem receive_of_rule_of_delay (due : rxRule s = some (.next t)) (sampling : t.fsm = .rxSample)
    (begun : t.tBase = t.now) (delay : 0 < t.cfg.sampleDelay) : receive s = .next t := by
  refine receive_of_rule due ((rxRule_none_iff_of_sampling sampling).mpr ?_)
  rw [begun]
  exact Nat.ne_of_lt (Nat.lt_add_of_pos_right delay)

/-! ## The reads of a phase -/

/-- The level that ends a phase: high ends phase A, low ends phase B (R89, R90). -/
def soughtLevel : WaitPhase → Bit
  | .waitHigh => true
  | .waitLow => false

/-- The control state of a phase (R33). -/
def phaseFsm : WaitPhase → Fsm
  | .waitHigh => .rxWaitHigh
  | .waitLow => .rxWaitLow

theorem waiting_of_phaseFsm {phase : WaitPhase} (waiting : s.fsm = phaseFsm phase) :
    s.fsm = .rxWaitHigh ∨ s.fsm = .rxWaitLow := by
  cases phase with
  | waitHigh => exact .inl waiting
  | waitLow => exact .inr waiting

theorem receiving_of_phaseFsm {phase : WaitPhase} (waiting : s.fsm = phaseFsm phase) : Receiving s :=
  .inr (waiting_of_phaseFsm waiting)

theorem rxRule_of_high (waiting : s.fsm = .rxWaitHigh) (due : readDue s = true) (high : s.line = true) :
    rxRule s = some (.next { s with fsm := .rxWaitLow, waitN := 0, tPhase := s.now }) := by
  simp [rxRule, waiting, due, rxReadHigh, high]

theorem rxRule_of_edge (waiting : s.fsm = .rxWaitLow) (due : readDue s = true) (low : s.line = false) :
    rxRule s = some (.next { s with waitN := s.waitN + 1, fsm := .rxSample, tBase := s.now }) := by
  simp [rxRule, waiting, due, rxReadLow, low]

/-- A read of the other level than the sought one is counted (R89, R90). -/
theorem rxRule_of_miss {phase : WaitPhase} (waiting : s.fsm = phaseFsm phase) (due : readDue s = true)
    (miss : s.line = !soughtLevel phase) : rxRule s = some (.next (countRead phase s)) := by
  cases phase with
  | waitHigh => simp_all [rxRule, rxReadHigh, phaseFsm, soughtLevel]
  | waitLow => simp_all [rxRule, rxReadLow, phaseFsm, soughtLevel]

/-- The instant of a read is the same after steps 0 to 3. -/
theorem readDue_settle (receiving : Receiving s)
    (due : s.now = s.tPhase + (s.waitN + 1) * s.cfg.pollTicks) : readDue (settle s) = true := by
  have same := settle_sameReceive receiving
  rw [readDue, beq_iff_eq, (settle_sameTick s).now, same.tPhase, same.waitN, same.cfg]
  exact due

section
variable (accepted : configProblem s.cfg = none) (no_reset : s.env.input.reset = false)
include accepted no_reset

/-- The tick in which phase A sees the line high (R89). -/
theorem step_of_high (waiting : s.fsm = .rxWaitHigh)
    (due : s.now = s.tPhase + (s.waitN + 1) * s.cfg.pollTicks) (high : s.line = true) :
    ∃ t, step s = .next t ∧ SameRegisters s t ∧ t.fsm = .rxWaitLow ∧ t.waitN = 0 ∧ t.tPhase = s.now
      ∧ t.rxResult = s.rxResult := by
  have receiving : Receiving s := .inr (.inl waiting)
  have same := settle_sameReceive receiving
  have rule := rxRule_of_high (same.fsm.trans waiting) (readDue_settle receiving due)
    ((line_settle receiving).trans high)
  have quiet := rxRule_none_of_phase_begun
    (s := { settle s with fsm := .rxWaitLow, waitN := 0, tPhase := (settle s).now })
    (same.cfg ▸ pollTicks_pos accepted) rfl rfl (.inr rfl)
  exact ⟨_, step_of_receive accepted no_reset (receive_of_rule rule quiet), { same.toSameRegisters with },
    rfl, rfl, (settle_sameTick s).now, same.rxResult⟩

/-- The tick of a read that does not end its phase: it is counted, and the budget's last raises the timeout
(R89, R90). -/
theorem step_of_miss {phase : WaitPhase} (waiting : s.fsm = phaseFsm phase)
    (due : s.now = s.tPhase + (s.waitN + 1) * s.cfg.pollTicks) (miss : s.line = !soughtLevel phase) :
    ∃ t, step s = .next t ∧ SameRegisters s t ∧ t.waitN = s.waitN + 1 ∧
      ((s.waitN + 1 = s.cfg.waitBudget ∧ t.fsm = .handoff
          ∧ t.rxResult = .err { phase := phase, bits := s.nbits })
        ∨ (s.waitN + 1 ≠ s.cfg.waitBudget ∧ t.fsm = phaseFsm phase ∧ t.tPhase = s.tPhase
          ∧ t.rxResult = s.rxResult)) := by
  have receiving := receiving_of_phaseFsm waiting
  have same := settle_sameReceive receiving
  have at_ := same.fsm.trans waiting
  have rule := rxRule_of_miss at_ (readDue_settle receiving due) ((line_settle receiving).trans miss)
  have quiet := (rxRule_rule rule).quiet (same.cfg ▸ pollTicks_pos accepted)
  have counted : (settle s).waitN + 1 = s.waitN + 1 := congrArg (· + 1) same.waitN
  have steps := fun quiet => step_of_receive accepted no_reset (receive_of_rule rule quiet)
  rcases countRead_cases phase (settle s) with ⟨last, h⟩ | ⟨more, h⟩
  all_goals rw [h] at quiet steps
  · rw [counted, same.cfg] at last
    refine ⟨_, steps (quiet.resolve_right nofun), { same.toSameRegisters with }, counted,
      .inl ⟨last, rfl, ?_⟩⟩
    rw [← same.nbits]
    rfl
  · rw [counted, same.cfg] at more
    exact ⟨_, steps (quiet.resolve_right fun h => h.1 h.2), { same.toSameRegisters with }, counted,
      .inr ⟨more, at_, same.tPhase, same.rxResult⟩⟩

/-- The tick in which phase B sees the edge, with the sample still to come (R90). -/
theorem step_of_edge (waiting : s.fsm = .rxWaitLow)
    (due : s.now = s.tPhase + (s.waitN + 1) * s.cfg.pollTicks) (low : s.line = false)
    (delay : 0 < s.cfg.sampleDelay) :
    ∃ t, step s = .next t ∧ SameRegisters s t ∧ t.fsm = .rxSample ∧ t.tBase = s.now
      ∧ t.waitN = s.waitN + 1 ∧ t.rxResult = s.rxResult := by
  have receiving : Receiving s := .inr (.inr waiting)
  have same := settle_sameReceive receiving
  have rule := rxRule_of_edge (same.fsm.trans waiting) (readDue_settle receiving due)
    ((line_settle receiving).trans low)
  exact ⟨_, step_of_receive accepted no_reset (receive_of_rule_of_delay rule rfl rfl (same.cfg ▸ delay)),
    { same.toSameRegisters with }, rfl, (settle_sameTick s).now, congrArg (· + 1) same.waitN,
    same.rxResult⟩

/-- The tick in which phase B sees the edge and the sample falls on it (R86, R90): the bit is the low level
of the edge, and it completes the frame or begins phase A. -/
theorem step_of_edge_sampled (waiting : s.fsm = .rxWaitLow)
    (due : s.now = s.tPhase + (s.waitN + 1) * s.cfg.pollTicks) (low : s.line = false)
    (at_once : s.cfg.sampleDelay = 0) :
    ∃ u, SameRegisters (rxTake false s) u ∧ u.now = s.now ∧ u.tBase = s.now ∧ u.rxResult = s.rxResult ∧
      ((u.frameWhole = true
          ∧ step s = .next (advanceTime (completeCommand u.fetched.opcode u.fetched.frame u)))
        ∨ (u.frameWhole = false ∧ step s = .next (advanceTime (enterWaitHigh u)))) := by
  have receiving : Receiving s := .inr (.inr waiting)
  have same := settle_sameReceive receiving
  have now_eq := (settle_sameTick s).now
  have low' := (line_settle receiving).trans low
  have rule := rxRule_of_edge (same.fsm.trans waiting) (readDue_settle receiving due) low'
  generalize edge_eq : { settle s with
    waitN := (settle s).waitN + 1, fsm := .rxSample, tBase := (settle s).now } = edge at rule
  have registers : SameRegisters s edge := edge_eq ▸ { same.toSameRegisters with }
  have line_eq : edge.line = false := edge_eq ▸ low'
  have received := receive_of_rule_of_sample rule (edge_eq ▸ rfl)
    (by rw [registers.cfg, at_once, ← edge_eq]; rfl)
  obtain ⟨_, _, _, _, -, frame⟩ := rxTake_frame false edge
  refine ⟨rxTake false edge, registers.rxTake false, by rw [frame, ← edge_eq]; exact now_eq,
    by rw [frame, ← edge_eq]; exact now_eq, by rw [frame, ← edge_eq]; exact same.rxResult, ?_⟩
  have outcome := rxSample_cases edge
  rw [← received, line_eq] at outcome
  exact outcome.imp (fun h => ⟨h.1, step_of_receive accepted no_reset h.2⟩)
    fun h => ⟨h.1, step_of_receive accepted no_reset h.2⟩

end

/-- The instruction in the registers depends on the receive registers alone (R92). -/
theorem SameRegisters.fetched (h : SameRegisters s t) : t.fetched = s.fetched := by
  rw [State.fetched, h.rxOp, h.hdr, h.data, State.fetched]

end Sys2Proof.Machine

namespace Sys2Proof.Proofs

open Sys2Proof.Machine

/-- Settles O11: a due sample is all of step 4, and a sample that makes the frame whole is `exec` of what is
fetched. -/
theorem stepRunsTheFetchedInstruction : Obligations.StepRunsTheFetchedInstruction := by
  intro s i accepted no_reset due whole fetched
  have at_sample : (settle s).fsm = .rxSample ∧ (settle s).now = (settle s).tBase + (settle s).cfg.sampleDelay := by
    simpa [sampleDue] using due
  obtain ⟨sampling, now_eq⟩ := at_sample
  have poll : 1 ≤ (settle s).cfg.pollTicks := (settle_sameTick s).cfg ▸ pollTicks_pos accepted
  have received : receive (settle s) = exec i (rxTake (settle s).line (settle s)) := by
    rw [receive_eq_rxSample poll sampling now_eq, ← fetched]
    exact if_pos whole
  rw [exec_eq] at received ⊢
  exact step_of_receive accepted no_reset received

/-- Settles O18: the line at the read decides between the end of the phase and a counted read, and the
budget decides whether the counted read is the last. -/
theorem phaseAReads : Obligations.PhaseAReads := by
  intro s accepted no_reset waiting due
  cases level : s.line with
  | true =>
    obtain ⟨t, steps, same, entered⟩ := step_of_high accepted no_reset waiting due level
    exact ⟨t, steps, fun _ => entered, nofun, nofun, same.nbits, same.need, same.hdr, same.rxOp, same.data⟩
  | false =>
    obtain ⟨t, steps, same, counted, outcome⟩ :=
      step_of_miss (phase := .waitHigh) accepted no_reset waiting due level
    refine ⟨t, steps, nofun, fun _ more => ?_, fun _ last => ?_,
      same.nbits, same.need, same.hdr, same.rxOp, same.data⟩
    · obtain ⟨-, stays, begun, result⟩ := outcome.resolve_left fun h => more h.1
      exact ⟨stays, counted, begun, result⟩
    · obtain ⟨-, handoff, result⟩ := outcome.resolve_right fun h => h.1 last
      exact ⟨handoff, counted, result⟩

/-- Settles O19: a high read is counted as in phase A; a low read is the edge, and with a sample delay of 0
the sample falls on it. -/
theorem phaseBReads : Obligations.PhaseBReads := by
  intro s accepted no_reset waiting due
  cases level : s.line with
  | true =>
    obtain ⟨t, steps, same, counted, outcome⟩ :=
      step_of_miss (phase := .waitLow) accepted no_reset waiting due level
    refine ⟨t, steps, nofun, fun _ more => ?_, fun _ last => ?_,
      fun _ => ⟨same.nbits, same.need, same.hdr, same.rxOp, same.data⟩⟩
    · obtain ⟨-, stays, begun, result⟩ := outcome.resolve_left fun h => more h.1
      exact ⟨stays, counted, begun, result⟩
    · obtain ⟨-, handoff, result⟩ := outcome.resolve_right fun h => h.1 last
      exact ⟨handoff, counted, result⟩
  | false =>
    rcases Nat.eq_zero_or_pos s.cfg.sampleDelay with at_once | delay
    · obtain ⟨u, taken, now_eq, base, result, outcome⟩ :=
        step_of_edge_sampled accepted no_reset waiting due level at_once
      obtain ⟨_, _, _, _, -, frame⟩ := rxTake_frame false s
      have count : u.nbits = s.nbits + 1 := by rw [taken.nbits, frame]
      have cfg : u.cfg = s.cfg := by rw [taken.cfg, frame]
      have positive : ¬0 < s.cfg.sampleDelay := at_once.not_gt
      rw [← taken.frameWhole, ← taken.fetched]
      rcases outcome with ⟨whole, steps⟩ | ⟨unfinished, steps⟩
      · refine ⟨_, steps, fun _ => ⟨base, fun h => absurd h positive, fun _ => ⟨count, taken.hdr, taken.data,
          ?_, fun h => absurd (whole.symm.trans h) nofun, fun _ => ⟨rfl, ?_, rfl⟩⟩⟩, nofun, nofun, nofun⟩
        · exact (opcode_ofFields _ _ _ _).trans taken.rxOp
        · rw [← cfg]
          rfl
      · exact ⟨_, steps, fun _ => ⟨base, fun h => absurd h positive, fun _ => ⟨count, taken.hdr, taken.data,
          taken.rxOp, fun _ => ⟨rfl, rfl, now_eq, taken.need, result⟩,
          fun h => absurd (unfinished.symm.trans h) nofun⟩⟩, nofun, nofun, nofun⟩
    · obtain ⟨t, steps, same, sampling, base, counted, result⟩ :=
        step_of_edge accepted no_reset waiting due level delay
      exact ⟨t, steps, fun _ => ⟨base, fun _ => ⟨sampling, counted, same.nbits, same.hdr, same.data, same.need,
        same.rxOp, result⟩, fun at_once => absurd at_once delay.ne'⟩, nofun, nofun, nofun⟩

end Sys2Proof.Proofs
end

section
/-! The start of a receive (R85): with an edge pending and no mask in the way, steps 0 to 3 of R132 leave
the start's instant alone, and step 4 starts the receive at that instant and not before. -/

namespace Sys2Proof.Machine

variable {s t : State} {T : Tick}

/-- The machine is armed with an edge pending whose receive starts at `T` (R85, R120), and no mask is held. -/
structure StartsAt (T : Tick) (s : State) : Prop where
  idle : s.fsm = .idle
  enabled : s.irqEnable = true
  pending : s.edgePending = true
  notHeld : s.maskHold = .none
  instant : s.tEdgePending + s.entryDelay = T

/-! ## Steps 0 to 3 -/

/-- Outside the hand-off the dispatcher's requests of a tick can only set the refusal mark (R46). -/
theorem dispatcherRequests_frame (elsewhere : s.fsm ≠ .handoff) (rs : List DispatcherRequest) :
    ∃ refused, rs.foldl dispatcherRequest s = { s with refused := refused } := by
  induction rs generalizing s with
  | nil => exact ⟨s.refused, rfl⟩
  | cons r rs ih =>
    rw [List.foldl_cons, dispatcherRequest_of_ne_handoff elsewhere]
    exact ih (s := refuseRequest s) elsewhere

/-- In `IDLE`, with no mask held or requested, steps 0 to 3 refuse the dispatcher's requests and look for an
edge. -/
theorem settle_of_idle (idle : s.fsm = .idle) (notHeld : s.maskHold = .none)
    (noFlush : s.env.input.flush = []) :
    ∃ refused, settle s = detectEdge { s with refused := refused } := by
  obtain ⟨refused, requests⟩ :=
    dispatcherRequests_frame (s := s) (by simp [idle]) s.env.input.dispatcher
  refine ⟨refused, ?_⟩
  rw [settle, applyRequests, noFlush, requests, List.foldl_nil,
    show maskResume { s with refused := refused } = { s with refused := refused } by
      simp [maskResume, notHeld],
    serialize_of_ne_tx (by simp [idle])]

/-- While a start is due to come, steps 0 to 3 write nothing but the refusal mark and `prev_level`: one more
edge changes nothing (R120). -/
theorem StartsAt.settle_eq (h : StartsAt T s) (noFlush : s.env.input.flush = []) :
    ∃ refused, settle s = { s with refused := refused, prevLevel := s.line } := by
  obtain ⟨refused, settled⟩ := settle_of_idle h.idle h.notHeld noFlush
  have ignored : fallingEdge { s with refused := refused } = { s with refused := refused } := by
    simp [fallingEdge, State.armed, h.idle, h.enabled, h.pending]
  refine ⟨refused, ?_⟩
  rw [settled, detectEdge, ignored, ite_self]
  rfl

theorem StartsAt.settle (h : StartsAt T s) (noFlush : s.env.input.flush = []) :
    StartsAt T (settle s) := by
  obtain ⟨refused, settled⟩ := h.settle_eq noFlush
  exact settled ▸ { h with }

/-! ## Step 4 -/

theorem StartsAt.rxRule_at (h : StartsAt T s) (at_ : s.now = T) : rxRule s = some (.next (rxStart s)) := by
  simp [rxRule, h.idle, startDue, State.armed, h.enabled, h.pending, at_, h.instant]

theorem StartsAt.receive_before (h : StartsAt T s) (before : s.now ≠ T) : receive s = .next s :=
  receive_of_quiet ((rxRule_none_iff_of_pending h.idle h.enabled h.pending).mpr (h.instant ▸ before))

/-- The first bit of a receive is stored as the last bit of the header. -/
theorem rxTake_rxStart (b : Bit) (s : State) :
    rxTake b (rxStart s) = { rxStart s with nbits := 1, hdr := shiftHeader 0#24 b } := by
  rw [rxTake_other (.inr (by simp [rxStart])), rxStore_header (.inr (by simp [rxStart])) (by simp [rxStart])]
  rfl

/-- A start with a positive sample delay is all of step 4. -/
theorem StartsAt.receive_at (h : StartsAt T s) (at_ : s.now = T) (delay : 0 < s.cfg.sampleDelay) :
    receive s = .next (rxStart s) :=
  receive_of_rule_of_delay (h.rxRule_at at_) rfl rfl delay

/-- With a sample delay of 0 the first bit is sampled in the tick of the start, and phase A begins. -/
theorem StartsAt.receive_at_sampled (h : StartsAt T s) (at_ : s.now = T)
    (at_once : s.cfg.sampleDelay = 0) :
    receive s = .next (enterWaitHigh { rxStart s with nbits := 1, hdr := shiftHeader 0#24 s.line }) := by
  have now_eq : (rxStart s).now = (rxStart s).tBase + (rxStart s).cfg.sampleDelay := by
    simp [rxStart, at_once]
  have line_eq : (rxStart s).line = s.line := rfl
  rw [receive_of_rule_of_sample (h.rxRule_at at_) rfl now_eq, rxSample, line_eq, rxTake_rxStart]
  rfl

end Sys2Proof.Machine

namespace Sys2Proof.Proofs

open Sys2Proof.Machine

/-- Settles O16: steps 0 to 3 leave the start due, and step 4 is the start, with the first sample in the same
tick when the sample delay is 0. -/
theorem receiveStartsWhenDue : Obligations.ReceiveStartsWhenDue := by
  intro s accepted no_reset noFlush notHeld idle enabled pending due
  have starts : StartsAt s.now s := ⟨idle, enabled, pending, notHeld, due.symm⟩
  obtain ⟨refused, settled⟩ := starts.settle_eq noFlush
  have starts' := settled ▸ starts.settle noFlush
  rcases Nat.eq_zero_or_pos s.cfg.sampleDelay with at_once | delay
  · refine ⟨_, step_of_receive accepted no_reset
        ((congrArg receive settled).trans (starts'.receive_at_sampled rfl at_once)),
      rfl, rfl, rfl, rfl, rfl, fun delay => absurd at_once delay.ne', fun _ => ⟨rfl, rfl, ?_, rfl, rfl⟩⟩
    have bit := Bool.toNat_lt s.line
    refine (toNat_shiftConcat_eq 0#24 s.line).trans ?_
    rw [BitVec.toNat_zero]
    omega
  · exact ⟨_, step_of_receive accepted no_reset
        ((congrArg receive settled).trans (starts'.receive_at rfl delay)),
      rfl, rfl, rfl, rfl, rfl, fun _ => ⟨rfl, rfl, rfl⟩, fun at_once => absurd at_once delay.ne'⟩

end Sys2Proof.Proofs
end

section
/-! What the console's level of one tick can change (R104): steps 0 to 3 of R132 with another list of inputs
do the same to every field but that list, until the edge detector reads the line. -/

namespace Sys2Proof.Machine

variable {s t : State}

/-! ## Requests with another list of inputs -/

/-- The same state with other inputs to come. -/
def State.withInputs (xs : List TickInput) (s : State) : State :=
  { s with env := { s.env with inputs := xs } }

section
variable (xs : List TickInput) (s : State)

/-- A draw takes none of the inputs, and does not depend on them. -/
theorem draw_withInputs (e : Env) :
    { e with inputs := xs }.draw = (e.draw.1, { e.draw.2 with inputs := xs }) := by
  unfold Env.draw
  cases e.draws <;> rfl

theorem rearm_withInputs : rearm (s.withInputs xs) = (rearm s).withInputs xs := by
  simp only [rearm, apply_ite (State.withInputs xs)]
  rfl

theorem dispatcherRequest_withInputs (r : DispatcherRequest) :
    dispatcherRequest (s.withInputs xs) r = (dispatcherRequest s r).withInputs xs := by
  cases r with
  | transmit f =>
    simp only [dispatcherRequest, transmit, apply_ite (State.withInputs xs)]
    simp only [State.withInputs, draw_withInputs]
    rfl
  | release =>
    simp only [dispatcherRequest, release, returnToIdle, apply_ite (State.withInputs xs),
      ← rearm_withInputs]
    rfl

theorem maskDraw_withInputs : maskDraw (s.withInputs xs) = (maskDraw s).withInputs xs := by
  simp only [maskDraw, apply_ite (State.withInputs xs)]
  simp only [State.withInputs, draw_withInputs]
  rfl

theorem maskAttempt_withInputs : maskAttempt (s.withInputs xs) = (maskAttempt s).withInputs xs := by
  simp only [maskAttempt, apply_ite (State.withInputs xs), maskDraw_withInputs]
  rfl

theorem maskResume_withInputs : maskResume (s.withInputs xs) = (maskResume s).withInputs xs := by
  have hold : (s.withInputs xs).maskHold = s.maskHold := rfl
  rw [maskResume, maskResume, hold]
  cases s.maskHold with
  | none => rfl
  | untilIdle => exact maskAttempt_withInputs xs s
  | untilClear =>
    simp only [apply_ite (State.withInputs xs)]
    rfl

theorem flushRequest_withInputs (r : FlushRequest) :
    flushRequest (s.withInputs xs) r = (flushRequest s r).withInputs xs := by
  cases r with
  | mask =>
    simp only [flushRequest, mask, apply_ite (State.withInputs xs), maskAttempt_withInputs]
    rfl
  | unmask =>
    simp only [flushRequest, unmask, apply_ite (State.withInputs xs)]
    rfl

/-- The requests of a tick do not depend on the inputs to come. -/
theorem applyRequests_withInputs (inp : TickInput) :
    applyRequests inp (s.withInputs xs) = (applyRequests inp s).withInputs xs := by
  rw [applyRequests, List.foldl_hom (State.withInputs xs) (fun t r => dispatcherRequest_withInputs xs t r),
    maskResume_withInputs, List.foldl_hom (State.withInputs xs) fun t r => flushRequest_withInputs xs t r,
    applyRequests]

end

/-! ## The edge detector outside `IDLE` -/

/-- A draw writes the two fields that say what was drawn. -/
theorem draw_frame (e : Env) : e.draw.2 = { e with draws := e.draw.2.draws, drawIx := e.draw.2.drawIx } := by
  unfold Env.draw
  cases e.draws <;> rfl

theorem not_armed (busy : s.fsm ≠ .idle) : s.armed = false := by
  simp [State.armed, busy]

/-- Under `Discard` an edge outside `IDLE` leaves no trace but `prev_level` (R121). -/
theorem detectEdge_of_discard (busy : s.fsm ≠ .idle) (discard : s.cfg.staleEdge = .discard) :
    detectEdge s = { s with prevLevel := s.line } := by
  have ignored : fallingEdge s = s := by
    simp [fallingEdge, not_armed busy, staleEdge, discard]
  rw [detectEdge, ignored, ite_self]

/-- An edge outside `IDLE` is latched at most, with the latency drawn for it (R120, R121). -/
theorem detectEdge_frame (s : State) : ∃ edge at_ delay draws drawIx, detectEdge s = { s with
    prevLevel := s.line, edgePending := edge, tEdgePending := at_, entryDelay := delay
    env := { s.env with draws := draws, drawIx := drawIx } } := by
  have unchanged : ∃ edge at_ delay draws drawIx, { s with prevLevel := s.line } = { s with
      prevLevel := s.line, edgePending := edge, tEdgePending := at_, entryDelay := delay
      env := { s.env with draws := draws, drawIx := drawIx } } :=
    ⟨s.edgePending, s.tEdgePending, s.entryDelay, s.env.draws, s.env.drawIx, rfl⟩
  unfold detectEdge
  split
  · rcases fallingEdge_cases s with ⟨-, -, latched⟩ | ⟨-, ignored⟩
    · rw [latched, latchEdge, draw_frame]
      exact ⟨_, _, _, _, _, rfl⟩
    · rw [ignored]
      exact unchanged
  · exact unchanged

/-! ## Step 4 with no instant due -/

/-- Outside `IDLE` a receive rule is due at an instant of its control state only (R86, R89, R90, R104). -/
theorem rxRule_none_of_not_due (busy : s.fsm ≠ .idle)
    (noSample : s.fsm = .rxSample → s.now ≠ s.tBase + s.cfg.sampleDelay)
    (noRead : s.fsm = .rxWaitHigh ∨ s.fsm = .rxWaitLow →
      s.now ≠ s.tPhase + (s.waitN + 1) * s.cfg.pollTicks) : rxRule s = none := by
  cases state : s.fsm with
  | idle => exact absurd state busy
  | rxSample => exact (rxRule_none_iff_of_sampling state).mpr (noSample state)
  | rxWaitHigh => exact (rxRule_none_iff_of_waiting (.inl state)).mpr (noRead (.inl state))
  | rxWaitLow => exact (rxRule_none_iff_of_waiting (.inr state)).mpr (noRead (.inr state))
  | handoff => exact rxRule_none_of_handoff state
  | tx => simp [rxRule, state]

/-- Outside `IDLE` whether a receive rule is due depends on the receive path and the time alone. -/
theorem SameReceive.rxRule_none (same : SameReceive s t) (now : t.now = s.now) (busy : s.fsm ≠ .idle)
    (quiet : rxRule s = none) : rxRule t = none := by
  refine rxRule_none_of_not_due (same.fsm ▸ busy) ?_ ?_ <;>
    rw [same.fsm, now, same.cfg] <;> intro state
  · rw [same.tBase]
    exact (rxRule_none_iff_of_sampling state).mp quiet
  · rw [same.tPhase, same.waitN]
    exact (rxRule_none_iff_of_waiting state).mp quiet

/-- In a receive, or in a hand-off in which the dispatcher waits, requests leave the receive path alone. -/
theorem applyRequests_sameReceive_of_waits {inp : TickInput}
    (waits : s.fsm = .handoff → inp.dispatcher = []) : SameReceive s (applyRequests inp s) := by
  by_cases handoff : s.fsm = .handoff
  · rw [applyRequests, waits handoff]
    exact .of_flushWrites (flushWrites_trans (maskResume_writes _) (flushRequests_writes inp.flush _))
  · exact applyRequests_sameReceive handoff inp

/-- A tick with no instant due, outside `IDLE` and `TX`: the requests, the edge detector and the advance of
time. -/
theorem step_of_not_due {x : TickInput} {rest : List TickInput} (accepted : configProblem s.cfg = none)
    (not_idle : s.fsm ≠ .idle) (not_tx : s.fsm ≠ .tx) (no_reset : x.reset = false)
    (waits : s.fsm = .handoff → x.dispatcher = []) (quiet : rxRule s = none) :
    step (s.withInputs (x :: rest))
      = .next (advanceTime (detectEdge ((applyRequests x s).withInputs (x :: rest)))) := by
  have requests := applyRequests_sameReceive_of_waits waits
  have settled : settle (s.withInputs (x :: rest))
      = detectEdge ((applyRequests x s).withInputs (x :: rest)) := by
    have input_eq : (s.withInputs (x :: rest)).env.input = x := rfl
    rw [settle, input_eq, applyRequests_withInputs, serialize_of_ne_tx]
    exact requests.fsm ▸ not_tx
  have now_eq : ((applyRequests x s).withInputs (x :: rest)).now = s.now := (applyRequests_sameTick x s).now
  have same : SameReceive s ((applyRequests x s).withInputs (x :: rest)) := { requests with }
  refine step_of_receive (s := s.withInputs (x :: rest)) accepted no_reset ?_
  rw [settled]
  exact receive_of_quiet ((same.trans (detectEdge_sameReceive _)).rxRule_none
    ((detectEdge_sameTick _).now.trans now_eq) not_idle quiet)

end Sys2Proof.Machine

namespace Sys2Proof.Proofs

open Sys2Proof.Machine

/-- Settles O20: the requests do the same whatever the console's level, no rule of the receive path is due,
and so only the edge detector reads it. -/
theorem lineIsReadOnlyWhenDue : Obligations.LineIsReadOnlyWhenDue := by
  intro s x rest accepted not_idle not_tx no_reset waits noSample noRead
  have quiet := rxRule_none_of_not_due not_idle noSample noRead
  have requests := applyRequests_sameReceive_of_waits waits
  have same_requests : applyRequests { x with consoleLow := !x.consoleLow } s = applyRequests x s := rfl
  refine ⟨_, _, step_of_not_due accepted not_idle not_tx no_reset waits quiet,
    step_of_not_due (x := { x with consoleLow := !x.consoleLow }) accepted not_idle not_tx no_reset waits quiet, ?_⟩
  rw [same_requests]
  generalize applyRequests x s = r at requests
  refine ⟨fun discard => ?_, fun _ => ?_⟩
  · have seen (xs) := detectEdge_of_discard (s := r.withInputs xs) (requests.fsm ▸ not_idle)
      ((congrArg Config.staleEdge requests.cfg).trans discard)
    rw [seen, seen]
    rfl
  · obtain ⟨_, _, _, _, _, seen⟩ := detectEdge_frame (r.withInputs (x :: rest))
    obtain ⟨_, _, _, _, _, seen'⟩ :=
      detectEdge_frame (r.withInputs ({ x with consoleLow := !x.consoleLow } :: rest))
    rw [seen, seen']
    rfl

end Sys2Proof.Proofs
end

section
/-! The bound of a receive (R102): a receive in progress has a deadline that no rule of the receive path puts
off, whatever the line and the neighbours do, and time does not pass the deadline without a result. -/

namespace Sys2Proof.Machine

variable {s t u : State}

/-! ## The deadline -/

/-- The longest time of one phase, a whole budget of reads (R12, R13). -/
def phaseTime (cfg : Config) : Nat := cfg.waitBudget * cfg.pollTicks

/-- The longest time from one sample to the next: two phases and the sample delay. -/
def bitTime (cfg : Config) : Nat := 2 * phaseTime cfg + cfg.sampleDelay

/-- The latest tick at which the bit being waited for can be sampled (with no receive in progress there is
none). -/
def lastSample (s : State) : Tick :=
  match s.fsm with
  | .rxSample => s.tBase + s.cfg.sampleDelay
  | .rxWaitHigh => s.tPhase + bitTime s.cfg
  | .rxWaitLow => s.tPhase + (phaseTime s.cfg + s.cfg.sampleDelay)
  | .idle => 0
  | .handoff => 0
  | .tx => 0

/-- The latest tick at which a receive in progress posts its result: the 281st bit is the last (R70). -/
def deadline (s : State) : Tick := lastSample s + (280 - s.nbits) * bitTime s.cfg

theorem lastSample_of_sampling (h : s.fsm = .rxSample) : lastSample s = s.tBase + s.cfg.sampleDelay := by
  simp only [lastSample, h]

theorem lastSample_of_waitHigh (h : s.fsm = .rxWaitHigh) : lastSample s = s.tPhase + bitTime s.cfg := by
  simp only [lastSample, h]

theorem lastSample_of_waitLow (h : s.fsm = .rxWaitLow) :
    lastSample s = s.tPhase + (phaseTime s.cfg + s.cfg.sampleDelay) := by
  simp only [lastSample, h]

/-- The next read of a phase is within its time, since the reads so far are within the budget. -/
theorem Waiting.now_le (h : Waiting s) : s.now ≤ s.tPhase + phaseTime s.cfg := by
  obtain ⟨-, -, reads, -, ahead⟩ := h
  exact ahead.trans (Nat.add_le_add_left (Nat.mul_le_mul_right _ reads) _)

theorem Waiting.tPhase_le (h : Waiting s) : s.tPhase ≤ s.now :=
  (Nat.le_add_right _ _).trans h.2.2.2.1

/-- A receive in progress has not missed its deadline. -/
theorem RxInv.now_le_lastSample (h : RxInv s) (receiving : Receiving s) : s.now ≤ lastSample s := by
  rcases receiving with sampling | waiting | waiting
  · rw [lastSample_of_sampling sampling]
    exact (h.sampling sampling).2.2
  · rw [lastSample_of_waitHigh waiting, bitTime]
    have ahead := (h.waiting (.inl waiting)).now_le
    lia
  · rw [lastSample_of_waitLow waiting]
    have ahead := (h.waiting (.inr waiting)).now_le
    lia

theorem RxInv.now_le_deadline (h : RxInv s) (receiving : Receiving s) : s.now ≤ deadline s :=
  (h.now_le_lastSample receiving).trans (Nat.le_add_right _ _)

/-! ## No rule puts the deadline off -/

/-- A receive goes on, and its deadline is not later than `d`, or its result is posted. -/
def EndsBy (d : Tick) (s : State) : Prop := s.fsm = .handoff ∨ (Receiving s ∧ deadline s ≤ d)

theorem EndsBy.advanceTime {d : Tick} (h : EndsBy d s) : EndsBy d (advanceTime s) := h

/-- A rule of the receive path either ends the receive or leaves it with no later deadline: the sample of a
bit leaves one bit fewer, the end of a phase leaves one phase fewer. -/
theorem ReceiveRule.endsBy (budget : 1 ≤ s.cfg.waitBudget) (rule : ReceiveRule s t) (h : RxInv s)
    (receiving : Receiving s) : EndsBy (deadline s) t := by
  have after := rule.rxInv budget h
  cases rule with
  | start idle => rcases receiving with e | e | e <;> simp [idle] at e
  | deliver => exact .inl rfl
  | nextBit need hdr op data sampling decision unfinished =>
    refine .inr ⟨.inr (.inl rfl), ?_⟩
    have on_time := h.now_le_lastSample receiving
    have more : s.nbits + 1 ≤ 280 := after.nbits_le (after.waitingHigh rfl).1
    obtain ⟨left, left_eq⟩ : ∃ left, 280 - s.nbits = left + 1 := ⟨279 - s.nbits, by lia⟩
    have left_after : 280 - (s.nbits + 1) = left := by lia
    rw [deadline, deadline, lastSample_of_waitHigh rfl, left_eq, Nat.succ_mul]
    dsimp only
    rw [left_after]
    lia
  | seeHigh waiting =>
    refine .inr ⟨.inr (.inr rfl), Nat.add_le_add_right ?_ _⟩
    have ahead := (h.waiting (.inl waiting)).now_le
    rw [lastSample_of_waitLow rfl, lastSample_of_waitHigh waiting, bitTime]
    dsimp only
    lia
  | seeEdge waiting =>
    refine .inr ⟨.inl rfl, Nat.add_le_add_right ?_ _⟩
    have ahead := (h.waiting (.inr waiting)).now_le
    rw [lastSample_of_sampling rfl, lastSample_of_waitLow waiting]
    dsimp only
    lia
  | readAgain => exact .inr ⟨receiving, le_refl _⟩
  | timeout => exact .inl rfl

theorem rxRepeat_of_quiet (quiet : rxRule s = none) (fuel : Nat) : rxRepeat fuel s = .next s := by
  cases fuel with
  | zero => rfl
  | succ fuel => simp [rxRepeat, quiet]

theorem rxRepeat_endsBy {fuel : Nat} {d : Tick} (budget : 1 ≤ s.cfg.waitBudget) (h : RxInv s)
    (receiving : Receiving s) (on_time : deadline s ≤ d) (received : rxRepeat fuel s = .next t) :
    EndsBy d t := by
  induction fuel generalizing s with
  | zero =>
    cases received
    exact .inr ⟨receiving, on_time⟩
  | succ fuel ih =>
    rcases rxRule_next s with none_due | ⟨u, due⟩
    · cases (rxRepeat_of_quiet none_due _).symm.trans received
      exact .inr ⟨receiving, on_time⟩
    · have rule := rxRule_rule due
      rw [rxRepeat, due] at received
      rcases rule.endsBy budget h receiving with handoff | ⟨receiving', earlier⟩
      · cases (rxRepeat_of_quiet (rxRule_none_of_handoff handoff) _).symm.trans received
        exact .inl handoff
      · exact ih ((rxRule_sameTick due).cfg ▸ budget) (rule.rxInv budget h) receiving'
          (earlier.trans on_time) received

/-- Steps 0 to 3 of a tick leave the deadline of a receive alone. -/
theorem SameReceive.deadline (same : SameReceive s t) (receiving : Receiving s) :
    deadline t = deadline s := by
  have sample : lastSample t = lastSample s := by
    rcases receiving with e | e | e <;> simp [lastSample, same.fsm, e, same.tBase, same.tPhase, same.cfg]
  rw [Machine.deadline, sample, same.nbits, same.cfg, Machine.deadline]

/-! ## Ticks without a reset -/

/-- What one tick without a reset leaves: the parameters, the next time and the inputs after the first. -/
structure NextTick (s t : State) : Prop where
  cfg : t.cfg = s.cfg
  now : t.now = s.now + 1
  inputs : t.env.inputs = s.env.inputs.tail

theorem nextTick_of_receive (received : receive (settle s) = .next t) : NextTick s (advanceTime t) := by
  have tick := receive_settle_sameTick received
  exact ⟨tick.cfg, congrArg (· + 1) tick.now, by rw [advanceTime_env, advance_inputs, tick.inputs]⟩

theorem listedNoReset.input {n : Nat} (h : listedNoReset (n + 1) s) : s.env.input.reset = false := by
  obtain ⟨listed, no_reset⟩ := h
  cases inputs : s.env.inputs with
  | nil => simp [inputs] at listed
  | cons x xs =>
    rw [input_of_cons inputs]
    exact no_reset x (by simp [inputs])

theorem listedNoReset.next {n : Nat} (h : listedNoReset (n + 1) s) (tick : NextTick s t) :
    listedNoReset n t := by
  obtain ⟨listed, no_reset⟩ := h
  rw [listedNoReset, tick.inputs]
  cases inputs : s.env.inputs with
  | nil => simp [inputs] at listed
  | cons x xs =>
    rw [inputs] at listed no_reset
    exact ⟨Nat.le_of_succ_le_succ listed, fun y inside => no_reset y (List.mem_cons_of_mem _ inside)⟩

theorem listedNoReset.mono {m n : Nat} (h : listedNoReset n s) (le : m ≤ n) : listedNoReset m s :=
  ⟨le.trans h.1, fun x inside => h.2 x (List.take_subset_take_left _ le inside)⟩

theorem run_succ {k : Nat} (steps : step s = .next t) : run (k + 1) s = run k t := by
  have core_steps : core.step s = .next t := steps
  simp only [run, Host.Core.run, core_steps]
  rfl

/-! ## The run to the deadline -/

/-- A tick of a receive in progress leaves it with no later deadline, or ends it. -/
theorem tick_endsBy (accepted : configProblem s.cfg = none) (no_reset : s.env.input.reset = false)
    (h : Inv s) (receiving : Receiving s) :
    ∃ t, step s = .next t ∧ NextTick s t ∧ EndsBy (deadline s) t := by
  have same := settle_sameReceive receiving
  have budget := waitBudget_pos accepted
  have settled := (settle_rules s).inv budget h
  obtain ⟨t, received⟩ := rxRepeat_next 2 (settle s)
  refine ⟨_, step_of_receive accepted no_reset received, nextTick_of_receive received, ?_⟩
  exact (rxRepeat_endsBy (s := settle s) (same.cfg ▸ budget) settled.rx
    (by rw [Receiving, same.fsm]; exact receiving) (same.deadline receiving).le received).advanceTime

/-- With the inputs listed up to its deadline, a receive posts its result no later. -/
theorem ends_by_deadline {n : Nat} (accepted : configProblem s.cfg = none) (h : Inv s)
    (receiving : Receiving s) (enough : deadline s < s.now + n) (listed : listedNoReset n s) :
    ∃ k t, run k s = .next t ∧ t.fsm = .handoff ∧ t.rxResult ≠ .none ∧ t.now ≤ deadline s + 1 := by
  induction n generalizing s with
  | zero => exact absurd enough (Nat.not_lt.mpr (h.rx.now_le_deadline receiving))
  | succ n ih =>
    obtain ⟨t, steps, tick, ends⟩ := tick_endsBy accepted listed.input h receiving
    have inv := Proofs.everyStepKeepsTheInvariant s t h steps
    have on_time := h.rx.now_le_deadline receiving
    have now_eq := tick.now
    rcases ends with handoff | ⟨receiving', earlier⟩
    · exact ⟨1, t, run_succ steps, handoff, inv.result.posted.mp handoff, by lia⟩
    · obtain ⟨k, v, runs, handoff, posted, in_time⟩ :=
        ih (tick.cfg ▸ accepted) inv receiving' (by lia) (listed.next tick)
      exact ⟨k + 1, v, (run_succ steps).trans runs, handoff, posted, by lia⟩

/-- The tick of a start leaves the deadline of its receive, or ends it: all that can follow in the same tick is
the sample of the first bit. -/
theorem start_endsBy (accepted : configProblem s.cfg = none) (no_reset : s.env.input.reset = false)
    (h : Inv s) (starts : startDue (settle s) = true) :
    ∃ t, step s = .next t ∧ NextTick s t ∧ EndsBy (deadline (rxStart (settle s))) t := by
  have tick := settle_sameTick s
  have budget : 1 ≤ (settle s).cfg.waitBudget := tick.cfg ▸ waitBudget_pos accepted
  have start : ReceiveRule (settle s) (rxStart (settle s)) := rxStart_rule starts
  have settled : Inv (settle s) := (settle_rules s).inv (waitBudget_pos accepted) h
  have due : rxRule (settle s) = some (.next (rxStart (settle s))) := by
    have idle : (settle s).fsm = .idle := by
      simp only [startDue, State.armed, Bool.and_eq_true, beq_iff_eq] at starts
      exact starts.1.1.1
    simp [rxRule, idle, starts]
  obtain ⟨t, received⟩ := rxRepeat_next 1 (rxStart (settle s))
  have ends : EndsBy (deadline (rxStart (settle s))) t :=
    rxRepeat_endsBy (s := rxStart (settle s)) budget (start.rxInv budget settled.rx) (.inl rfl) (le_refl _) received
  have whole_tick : receive (settle s) = .next t := by
    rw [receive, rxRepeat, due]
    exact received
  exact ⟨_, step_of_receive accepted no_reset whole_tick, nextTick_of_receive whole_tick, ends.advanceTime⟩

/-- The bound of R102 is the time from the start, or from the first edge, to the deadline. -/
theorem deadline_of_no_bit (sampling : s.fsm = .rxSample) (first : s.nbits = 0) :
    deadline s = s.tBase + (281 * s.cfg.sampleDelay + 280 * (2 * (s.cfg.waitBudget * s.cfg.pollTicks))) := by
  rw [deadline, lastSample_of_sampling sampling, first, bitTime, phaseTime]
  lia

/-- From any point of a receive the deadline is within R102's bound. -/
theorem RxInv.deadline_le (h : RxInv s) (receiving : Receiving s) :
    deadline s ≤ s.now + (281 * s.cfg.sampleDelay + 280 * (2 * (s.cfg.waitBudget * s.cfg.pollTicks))) := by
  have bits_left {m : Nat} (few : 280 - s.nbits ≤ m) : (280 - s.nbits) * bitTime s.cfg ≤ m * bitTime s.cfg :=
    Nat.mul_le_mul_right _ few
  rw [deadline]
  rcases receiving with sampling | waiting | waiting
  · have behind := (h.sampling sampling).2.1
    have rest := bits_left (m := 280) (Nat.sub_le _ _)
    rw [lastSample_of_sampling sampling]
    rw [bitTime, phaseTime] at *
    lia
  · have wait := h.waiting (.inl waiting)
    have behind := wait.tPhase_le
    have rest := bits_left (m := 279) (by have := wait.2.1; omega)
    rw [lastSample_of_waitHigh waiting]
    rw [bitTime, phaseTime] at *
    lia
  · have wait := h.waiting (.inr waiting)
    have behind := wait.tPhase_le
    have rest := bits_left (m := 279) (by have := wait.2.1; omega)
    rw [lastSample_of_waitLow waiting]
    rw [bitTime, phaseTime] at *
    lia

end Sys2Proof.Machine

namespace Sys2Proof.Proofs

open Sys2Proof.Machine

/-- Settles O21: the deadline of a receive is at most the bound away, and it is met. A start is followed in
its own tick at most by the sample of the first bit, which keeps the deadline too. -/
theorem everyReceiveEnds : Obligations.EveryReceiveEnds := by
  rintro s bound accepted inv rfl listed
  refine ⟨fun starts => ?_, fun sampling first => ?_, fun receiving => ?_⟩
  · obtain ⟨t, steps, tick, ends⟩ := start_endsBy accepted listed.input inv starts
    have inv' := everyStepKeepsTheInvariant s t inv steps
    have deadline_eq := deadline_of_no_bit (s := rxStart (settle s)) rfl rfl
    have base : (rxStart (settle s)).tBase = s.now := (settle_sameTick s).now
    have cfg : (rxStart (settle s)).cfg = s.cfg := (settle_sameTick s).cfg
    rw [base, cfg] at deadline_eq
    have now_eq := tick.now
    rcases ends with handoff | ⟨receiving, in_time⟩
    · exact ⟨0, t, run_succ steps, handoff, inv'.result.posted.mp handoff, by lia⟩
    · obtain ⟨k, u, runs, handoff, posted, in_time'⟩ := ends_by_deadline (tick.cfg ▸ accepted) inv' receiving
        (by lia) (listed.next tick)
      exact ⟨k, u, (run_succ steps).trans runs, handoff, posted, by lia⟩
  · have deadline_eq := deadline_of_no_bit sampling first
    have behind := (inv.rx.sampling sampling).2.1
    obtain ⟨k, t, runs, handoff, posted, in_time⟩ :=
      ends_by_deadline accepted inv (.inl sampling) (by lia) listed
    exact ⟨k, t, runs, handoff, posted, deadline_eq ▸ in_time⟩
  · have deadline_le := inv.rx.deadline_le receiving
    obtain ⟨k, t, runs, handoff, posted, in_time⟩ :=
      ends_by_deadline accepted inv receiving (by lia) listed
    exact ⟨k, t, runs, handoff, posted, by lia⟩

end Sys2Proof.Proofs
end

section
/-! A well-timed waveform (R103): the machine follows the console cell by cell. In each cell the sample falls
on the bit's level, phase A ends in the cell's released part, and phase B detects the next cell's edge less
than one poll late; the first edge is detected after its entry latency. -/

namespace Sys2Proof.Machine

variable {s t u : State} {cfg : Config} {level : Tick → Bit} {stop T : Tick}

/-! ## Runs -/

/-- The machine runs from one state to a later one, without a reset. -/
abbrev Runs : State → State → Prop :=
  Relation.ReflTransGen fun s t => step s = .next t ∧ t.now = s.now + 1

theorem Runs.exists_run (runs : Runs s t) : ∃ k, run k s = .next t ∧ t.now = s.now + k := by
  induction runs using Relation.ReflTransGen.head_induction_on with
  | refl => exact ⟨0, rfl, rfl⟩
  | head tick _ ih =>
    obtain ⟨steps, next⟩ := tick
    obtain ⟨k, runs, later⟩ := ih
    exact ⟨k + 1, (run_succ steps).trans runs, by lia⟩

theorem nextTick_of_step (no_reset : s.env.input.reset = false) (steps : step s = .next t) :
    NextTick s t := by
  rcases step_cases s with ⟨r, -, refused⟩ | ⟨-, reset, -⟩ | ⟨-, -, u, received, ends⟩
  · cases refused.symm.trans steps
  · cases no_reset.symm.trans reset
  · cases ends.symm.trans steps
    exact nextTick_of_receive received

theorem SameRegisters.trans (h : SameRegisters s t) (g : SameRegisters t u) : SameRegisters s u :=
  ⟨g.cfg.trans h.cfg, g.nbits.trans h.nbits, g.need.trans h.need, g.hdr.trans h.hdr, g.rxOp.trans h.rxOp,
    g.data.trans h.data⟩

/-- Taking any number of bits depends on the receive registers alone. -/
theorem SameRegisters.foldl (h : SameRegisters s t) (bits : List Bit) :
    SameRegisters (bits.foldl (fun s b => Machine.rxTake b s) s)
      (bits.foldl (fun s b => Machine.rxTake b s) t) := by
  induction bits generalizing s t with
  | nil => exact h
  | cons b bits ih => exact ih (h.rxTake b)

/-! ## Listening to the console -/

/-- A machine of the accepted configuration `cfg` that hears nothing but the console, whose drive leaves the
line at `level` at every tick from now up to `stop`. -/
structure Hears (cfg : Config) (level : Tick → Bit) (stop : Tick) (s : State) : Prop where
  cfg_eq : s.cfg = cfg
  accepted : configProblem s.cfg = none
  drive : DriveInv s
  inputs : ∀ T, s.now ≤ T → T < stop → s.env.inputs[T - s.now]? = some (driveInput (!level T))

namespace Hears

theorem input (h : Hears cfg level stop s) (inside : s.now < stop) :
    s.env.input = driveInput (!level s.now) := by
  have first := h.inputs s.now (le_refl _) inside
  rw [Nat.sub_self] at first
  cases inputs : s.env.inputs with
  | nil => simp [inputs] at first
  | cons x xs =>
    rw [inputs, List.getElem?_cons_zero] at first
    exact (input_of_cons inputs).trans (Option.some.inj first)

theorem no_reset (h : Hears cfg level stop s) (inside : s.now < stop) : s.env.input.reset = false := by
  rw [h.input inside]
  rfl

theorem line (h : Hears cfg level stop s) (inside : s.now < stop) (not_tx : s.fsm ≠ .tx) :
    s.line = level s.now := by
  rw [State.line, h.input inside, h.drive.released fun e => not_tx e.1, Bool.or_false]
  exact Bool.not_not _

/-- One more tick without a reset. -/
theorem next (h : Hears cfg level stop s) (tick : NextTick s t) (drive : DriveInv t) :
    Hears cfg level stop t where
  cfg_eq := tick.cfg.trans h.cfg_eq
  accepted := tick.cfg ▸ h.accepted
  drive := drive
  inputs T later inside := by
    have now_eq := tick.now
    have shift : T - s.now = T - t.now + 1 := by lia
    have heard := h.inputs T (by lia) inside
    rwa [tick.inputs, List.getElem?_tail, ← shift]

theorem step (h : Hears cfg level stop s) (inside : s.now < stop) (steps : step s = .next t) :
    Hears cfg level stop t ∧ Runs s t ∧ t.now = s.now + 1 := by
  have tick := nextTick_of_step (h.no_reset inside) steps
  exact ⟨h.next tick (Proofs.deviceDrivesOnlySymbols s t h.drive steps), .single ⟨steps, tick.now⟩, tick.now⟩

/-! ## Waiting for an instant -/

/-- A tick of a receive at which no instant is due. -/
theorem pass (h : Hears cfg level stop s) (inside : s.now < stop) (receiving : Receiving s)
    (quiet : rxRule s = none) :
    ∃ t, Hears cfg level stop t ∧ Runs s t ∧ t.now = s.now + 1 ∧ SameReceive s t := by
  have same := settle_sameReceive receiving
  have busy : s.fsm ≠ .idle := by rcases receiving with e | e | e <;> simp [e]
  have steps := step_of_receive h.accepted (h.no_reset inside)
    (receive_of_quiet (same.rxRule_none (settle_sameTick s).now busy quiet))
  obtain ⟨hears, runs, now_eq⟩ := h.step inside steps
  exact ⟨_, hears, runs, now_eq, { same with }⟩

/-- A receive whose only instant is `T` comes to `T` as it is. -/
theorem wait (h : Hears cfg level stop s) (receiving : Receiving s) (ahead : s.now ≤ T) (inside : T ≤ stop)
    (quiet : ∀ t, SameReceive s t → t.now ≠ T → rxRule t = none) :
    ∃ t, Hears cfg level stop t ∧ Runs s t ∧ t.now = T ∧ SameReceive s t := by
  obtain ⟨n, rfl⟩ := Nat.exists_eq_add_of_le ahead
  induction n generalizing s with
  | zero => exact ⟨s, h, .refl, rfl, .refl s⟩
  | succ n ih =>
    obtain ⟨t, hears, runs, now_eq, same⟩ := h.pass (by lia) receiving (quiet s (.refl s) (by lia))
    have instant : s.now + (n + 1) = t.now + n := by lia
    rw [instant] at quiet inside ⊢
    obtain ⟨u, hears', runs', at_, same'⟩ := ih hears (by rw [Receiving, same.fsm]; exact receiving)
      (Nat.le_add_right _ _) inside fun u same' => quiet u (same.trans same')
    exact ⟨u, hears', runs.trans runs', at_, same.trans same'⟩

theorem wait_sample (h : Hears cfg level stop s) (sampling : s.fsm = .rxSample)
    (ahead : s.now ≤ s.tBase + cfg.sampleDelay) (inside : s.tBase + cfg.sampleDelay ≤ stop) :
    ∃ t, Hears cfg level stop t ∧ Runs s t ∧ t.now = s.tBase + cfg.sampleDelay ∧ SameReceive s t := by
  refine h.wait (.inl sampling) ahead inside fun t same not_due => ?_
  rw [rxRule_none_iff_of_sampling (same.fsm.trans sampling), same.tBase, same.cfg, h.cfg_eq]
  exact not_due

theorem wait_read (h : Hears cfg level stop s) {phase : WaitPhase} (waiting : s.fsm = phaseFsm phase)
    (ahead : s.now ≤ s.tPhase + (s.waitN + 1) * cfg.pollTicks)
    (inside : s.tPhase + (s.waitN + 1) * cfg.pollTicks ≤ stop) :
    ∃ t, Hears cfg level stop t ∧ Runs s t ∧ t.now = s.tPhase + (s.waitN + 1) * cfg.pollTicks
      ∧ SameReceive s t := by
  refine h.wait (receiving_of_phaseFsm waiting) ahead inside fun t same not_due => ?_
  rw [rxRule_none_iff_of_waiting (waiting_of_phaseFsm (same.fsm.trans waiting)), same.tPhase, same.waitN, same.cfg, h.cfg_eq]
  exact not_due

end Hears

/-! ## A phase finds its level -/

/-- A read of a phase is due in this tick. -/
structure ReadNow (phase : WaitPhase) (s : State) : Prop where
  waiting : s.fsm = phaseFsm phase
  due : s.now = s.tPhase + (s.waitN + 1) * s.cfg.pollTicks

theorem ne_tx_of_phaseFsm {phase : WaitPhase} (waiting : s.fsm = phaseFsm phase) : s.fsm ≠ .tx := by
  cases phase <;> simp [waiting, phaseFsm]

/-- The next read of a phase comes. -/
theorem Hears.next_read (h : Hears cfg level stop s) {phase : WaitPhase} (waiting : s.fsm = phaseFsm phase)
    (ahead : s.now ≤ s.tPhase + (s.waitN + 1) * cfg.pollTicks)
    (inside : s.tPhase + (s.waitN + 1) * cfg.pollTicks ≤ stop) :
    ∃ t, Hears cfg level stop t ∧ Runs s t ∧ SameReceive s t ∧ ReadNow phase t
      ∧ t.now = s.tPhase + (s.waitN + 1) * cfg.pollTicks := by
  obtain ⟨t, hears, runs, at_, same⟩ := h.wait_read waiting ahead inside
  refine ⟨t, hears, runs, same, ⟨same.fsm.trans waiting, ?_⟩, at_⟩
  rw [same.tPhase, same.waitN, hears.cfg_eq, at_]

/-- A read of the other level, with budget left, leaves the phase one read on. -/
theorem Hears.miss (h : Hears cfg level stop s) {phase : WaitPhase} (read : ReadNow phase s)
    (inside : s.now < stop) (miss : level s.now = !soughtLevel phase) (more : s.waitN + 1 < cfg.waitBudget) :
    ∃ t, Hears cfg level stop t ∧ Runs s t ∧ SameRegisters s t ∧ t.fsm = phaseFsm phase
      ∧ t.tPhase = s.tPhase ∧ t.waitN = s.waitN + 1 ∧ t.now = s.now + 1 := by
  have line_eq := (h.line inside (ne_tx_of_phaseFsm read.waiting)).trans miss
  obtain ⟨t, steps, registers, counted, outcome⟩ :=
    step_of_miss h.accepted (h.no_reset inside) read.waiting read.due line_eq
  obtain ⟨-, waiting, begun, -⟩ := outcome.resolve_left fun last => more.ne (last.1.trans (by rw [h.cfg_eq]))
  obtain ⟨hears, runs, next⟩ := h.step inside steps
  exact ⟨t, hears, runs, registers, waiting, begun, counted, next⟩

/-- The reads of a phase go on until the sought level comes at `edge`, and hit it before `shut`, one poll later
or more, if the budget reaches as far. -/
theorem Hears.reach_level (h : Hears cfg level stop s) {phase : WaitPhase} (waiting : s.fsm = phaseFsm phase)
    {edge shut : Tick} (inside : shut ≤ stop)
    (miss : ∀ T, s.tPhase ≤ T → T < edge → level T = !soughtLevel phase)
    (wide : edge + cfg.pollTicks ≤ shut) (inBudget : edge ≤ s.tPhase + cfg.waitBudget * cfg.pollTicks)
    (reads : s.waitN < cfg.waitBudget) (ahead : s.now ≤ s.tPhase + (s.waitN + 1) * cfg.pollTicks)
    (hit : s.tPhase + (s.waitN + 1) * cfg.pollTicks < shut) :
    ∃ t, Hears cfg level stop t ∧ Runs s t ∧ SameRegisters s t ∧ ReadNow phase t
      ∧ edge ≤ t.now ∧ t.now < shut := by
  obtain ⟨n, left⟩ := Nat.exists_eq_add_of_lt reads
  induction n generalizing s with
  | zero =>
    obtain ⟨t, hears, runs, same, read, at_⟩ := h.next_read waiting ahead (by lia)
    rw [left, ← at_] at inBudget
    exact ⟨t, hears, runs, same.toSameRegisters, read, inBudget, by lia⟩
  | succ n ih =>
    obtain ⟨t, hears, runs, same, read, at_⟩ := h.next_read waiting ahead (by lia)
    rcases Nat.lt_or_ge t.now edge with early | seen
    · obtain ⟨u, hears, missed, registers, waiting, begun, counted, next⟩ := hears.miss read (by lia)
        (miss _ (by rw [at_]; exact Nat.le_add_right _ _) early) (by rw [same.waitN]; lia)
      rw [same.waitN] at counted
      rw [same.tPhase] at begun
      have next_read : u.tPhase + (u.waitN + 1) * cfg.pollTicks = t.now + cfg.pollTicks := by
        rw [begun, counted, at_, Nat.succ_mul, Nat.add_assoc]
      have poll := hears.cfg_eq ▸ pollTicks_pos hears.accepted
      obtain ⟨v, hears, others, registers', found⟩ :=
        ih hears waiting (begun ▸ miss) (begun ▸ inBudget) (by lia) (by lia) (by lia) (by lia)
      exact ⟨v, hears, (runs.trans missed).trans others,
        (same.toSameRegisters.trans registers).trans registers', found⟩
    · exact ⟨t, hears, runs, same.toSameRegisters, read, seen, by lia⟩

/-! ## The console's cells -/

/-- From `tf` on the level shows the cells of these bits, each low and then released (R82, R103). -/
def Spells (lo hi : Bit → Tick) (level : Tick → Bit) : Tick → List Bit → Prop
  | _, [] => True
  | tf, b :: bits =>
    (∀ T, tf ≤ T → T < tf + lo b → level T = false)
      ∧ (∀ T, tf + lo b ≤ T → T < tf + lo b + hi b → level T = true)
      ∧ Spells lo hi level (tf + lo b + hi b) bits

/-- The ticks these cells take. -/
def cellsTime (lo hi : Bit → Tick) (bits : List Bit) : Tick := (bits.map fun b => lo b + hi b).sum

theorem cellsTime_cons (lo hi : Bit → Tick) (b : Bit) (bits : List Bit) :
    cellsTime lo hi (b :: bits) = lo b + hi b + cellsTime lo hi bits := by
  simp [cellsTime]

/-- The edge of the cell that begins at `tf` has been detected, at most `e` ticks late, and its bit is to be
sampled. -/
structure EdgeSeen (e tf : Tick) (s : State) : Prop where
  sampling : s.fsm = .rxSample
  notEarly : tf ≤ s.tBase
  notLate : s.tBase ≤ tf + e
  now_eq : s.now = s.tBase + 1

/-- The tick of a sample, with the bit that is on the line: the frame is delivered or phase A begins. -/
theorem Hears.sample (h : Hears cfg level stop s) {e tf : Tick} (edge : EdgeSeen e tf s)
    (delay : 1 ≤ cfg.sampleDelay) (inside : s.tBase + cfg.sampleDelay < stop) {b : Bit}
    (bit : level (s.tBase + cfg.sampleDelay) = b) :
    ∃ t, Hears cfg level stop t ∧ Runs s t ∧ t.now = s.tBase + cfg.sampleDelay + 1 ∧
      (((rxTake b s).frameWhole = true ∧ t.fsm = .handoff
          ∧ t.rxResult = .ok (rxTake b s).fetched.frame)
        ∨ ((rxTake b s).frameWhole = false ∧ t.fsm = .rxWaitHigh ∧ t.waitN = 0
          ∧ t.tPhase = s.tBase + cfg.sampleDelay ∧ SameRegisters (rxTake b s) t)) := by
  have now_eq := edge.now_eq
  obtain ⟨t, hears, runs, at_, same⟩ := h.wait_sample edge.sampling (by lia) inside.le
  have sampling := same.fsm.trans edge.sampling
  have inside' : t.now < stop := at_ ▸ inside
  have line_eq : t.line = b := by rw [hears.line inside' (by simp [sampling]), at_, bit]
  have due : t.now = t.tBase + t.cfg.sampleDelay := by rw [at_, same.tBase, hears.cfg_eq]
  obtain ⟨u, sampled, outcome⟩ := step_of_sample hears.accepted (hears.no_reset inside') sampling due
  have registers : SameRegisters (rxTake b s) u :=
    line_eq ▸ (same.toSameRegisters.rxTake t.line).trans sampled.toSameRegisters
  rw [registers.frameWhole, registers.fetched] at outcome
  rcases outcome with ⟨whole, steps⟩ | ⟨unfinished, steps⟩
  all_goals
    obtain ⟨hears', runs', next⟩ := hears.step inside' steps
    refine ⟨_, hears', runs.trans runs', by rw [next, at_], ?_⟩
  · exact .inl ⟨whole, rfl, rfl⟩
  · exact .inr ⟨unfinished, rfl, rfl, sampled.now.trans at_, { registers with }⟩

section
variable {lo hi : Bit → Tick} {e tf : Tick} {b : Bit}

/-- A well-timed 1 is low for at least one poll and at most the sample delay. -/
theorem WellTimed.delay_pos (timed : WellTimed cfg lo hi e) (poll : 1 ≤ cfg.pollTicks) : 1 ≤ cfg.sampleDelay :=
  poll.trans ((timed.edgeSeen true).trans timed.readsOne.1)

/-- A well-timed cell is not over at its sample. -/
theorem WellTimed.sample_inside (timed : WellTimed cfg lo hi e) (b : Bit) :
    cfg.sampleDelay + e < lo b + hi b := by
  cases b with
  | false => exact timed.readsZero.trans_le (Nat.le_add_right _ _)
  | true => exact timed.readsOne.2

/-- In a well-timed cell the sample falls on the bit's level (R103). -/
theorem WellTimed.level_at_sample (timed : WellTimed cfg lo hi e) {T : Tick} (edge : tf + cfg.sampleDelay ≤ T)
    (late : T ≤ tf + e + cfg.sampleDelay) (low : ∀ T, tf ≤ T → T < tf + lo b → level T = false)
    (high : ∀ T, tf + lo b ≤ T → T < tf + lo b + hi b → level T = true) : level T = b := by
  have inside := timed.sample_inside b
  cases b with
  | false =>
    have zero := timed.readsZero
    exact low T (by lia) (by lia)
  | true =>
    have one := timed.readsOne.1
    exact high T (by lia) (by lia)

/-- Phase A ends in the released part of the cell (R89, R103). -/
theorem Hears.phaseA (h : Hears cfg level stop s) (timed : WellTimed cfg lo hi e)
    (inside : tf + lo b + hi b ≤ stop) (low : ∀ T, tf ≤ T → T < tf + lo b → level T = false)
    (high : ∀ T, tf + lo b ≤ T → T < tf + lo b + hi b → level T = true)
    (waiting : s.fsm = .rxWaitHigh) (first : s.waitN = 0) (now_eq : s.now = s.tPhase + 1)
    (notEarly : tf + cfg.sampleDelay ≤ s.tPhase) (notLate : s.tPhase ≤ tf + e + cfg.sampleDelay) :
    ∃ t, Hears cfg level stop t ∧ Runs s t ∧ SameRegisters s t ∧ t.fsm = .rxWaitLow ∧ t.waitN = 0
      ∧ t.now = t.tPhase + 1 ∧ tf + lo b ≤ t.tPhase ∧ t.tPhase < tf + lo b + hi b := by
  have poll := h.cfg_eq ▸ pollTicks_pos h.accepted
  have budget := h.cfg_eq ▸ waitBudget_pos h.accepted
  have gap := timed.gapSeen b
  have in_time := timed.gapInBudget b
  have hit : s.tPhase + cfg.pollTicks < tf + lo b + hi b := by
    cases b with
    | false =>
      have zero := timed.readsZero
      lia
    | true =>
      have one := timed.gapAfterOne
      lia
  obtain ⟨t, hears, runs, registers, read, seen, before⟩ := h.reach_level (phase := .waitHigh) waiting inside
    (fun T after rising => low T (by lia) rising) (by lia) (by lia) (by lia)
    (by rw [first, Nat.zero_add, Nat.one_mul]; lia) (by rw [first, Nat.zero_add, Nat.one_mul]; exact hit)
  have inside' : t.now < stop := by lia
  have line_eq : t.line = true :=
    (hears.line inside' (ne_tx_of_phaseFsm read.waiting)).trans (high _ seen before)
  obtain ⟨u, steps, registers', entered, first', begun, -⟩ :=
    step_of_high hears.accepted (hears.no_reset inside') read.waiting read.due line_eq
  obtain ⟨hears', runs', next⟩ := hears.step inside' steps
  exact ⟨u, hears', runs.trans runs', registers.trans registers', entered, first', by lia, by lia, by lia⟩

/-- Phase B detects the next cell's edge, less than one poll late (R90, R103). -/
theorem Hears.phaseB (h : Hears cfg level stop s) (timed : WellTimed cfg lo hi e)
    (late : cfg.pollTicks - 1 ≤ e) {rise fall : Tick} {next : Bit} (inside : fall + lo next ≤ stop)
    (delay : 1 ≤ cfg.sampleDelay) (high : ∀ T, rise ≤ T → T < fall → level T = true)
    (low : ∀ T, fall ≤ T → T < fall + lo next → level T = false) (cell : fall = rise + hi b)
    (waiting : s.fsm = .rxWaitLow) (first : s.waitN = 0) (now_eq : s.now = s.tPhase + 1)
    (risen : rise ≤ s.tPhase) (before : s.tPhase < fall) :
    ∃ t, Hears cfg level stop t ∧ Runs s t ∧ SameRegisters s t ∧ EdgeSeen e fall t := by
  have poll := h.cfg_eq ▸ pollTicks_pos h.accepted
  have budget := h.cfg_eq ▸ waitBudget_pos h.accepted
  have edge := timed.edgeSeen next
  have in_time := timed.edgeInBudget b
  obtain ⟨t, hears, runs, registers, read, seen, soon⟩ := h.reach_level (phase := .waitLow) waiting
    (edge := fall) (shut := fall + cfg.pollTicks) (by lia)
    (fun T after falling => high T (by lia) falling) (le_refl _) (by lia) (by lia)
    (by rw [first, Nat.zero_add, Nat.one_mul]; lia) (by rw [first, Nat.zero_add, Nat.one_mul]; lia)
  have inside' : t.now < stop := by lia
  have line_eq : t.line = false :=
    (hears.line inside' (ne_tx_of_phaseFsm read.waiting)).trans (low _ seen (by lia))
  obtain ⟨u, steps, registers', sampling, base, -⟩ := step_of_edge hears.accepted (hears.no_reset inside')
    read.waiting read.due line_eq (hears.cfg_eq ▸ delay)
  obtain ⟨hears', runs', next⟩ := hears.step inside' steps
  exact ⟨u, hears', runs.trans runs', registers.trans registers', sampling, by lia, by lia, by lia⟩

/-- The sample of a well-timed cell takes its bit, inside the cell. -/
theorem Hears.sample_cell (h : Hears cfg level stop s) (timed : WellTimed cfg lo hi e) (edge : EdgeSeen e tf s)
    (inside : tf + lo b + hi b ≤ stop) (low : ∀ T, tf ≤ T → T < tf + lo b → level T = false)
    (high : ∀ T, tf + lo b ≤ T → T < tf + lo b + hi b → level T = true) :
    ∃ t, Hears cfg level stop t ∧ Runs s t ∧ t.now = s.tBase + cfg.sampleDelay + 1
      ∧ t.now ≤ tf + lo b + hi b ∧
      (((rxTake b s).frameWhole = true ∧ t.fsm = .handoff
          ∧ t.rxResult = .ok (rxTake b s).fetched.frame)
        ∨ ((rxTake b s).frameWhole = false ∧ t.fsm = .rxWaitHigh ∧ t.waitN = 0
          ∧ t.tPhase = s.tBase + cfg.sampleDelay ∧ SameRegisters (rxTake b s) t)) := by
  have notEarly := edge.notEarly
  have notLate := edge.notLate
  have in_cell := timed.sample_inside b
  have bit := timed.level_at_sample (T := s.tBase + cfg.sampleDelay) (by lia) (by lia) low high
  obtain ⟨t, hears, runs, now_eq, outcome⟩ :=
    h.sample edge (timed.delay_pos (h.cfg_eq ▸ pollTicks_pos h.accepted)) (by lia) bit
  exact ⟨t, hears, runs, now_eq, by lia, outcome⟩

/-- From the detected edge of its first cell, a well-timed waveform whose last bit completes the frame, and no
bit before, is received within the waveform. -/
theorem Hears.receive_cells (timed : WellTimed cfg lo hi e) (late : cfg.pollTicks - 1 ≤ e)
    (bits : List Bit) (h : Hears cfg level stop s) (edge : EdgeSeen e tf s)
    (spells : Spells lo hi level tf (b :: bits)) (inside : tf + cellsTime lo hi (b :: bits) ≤ stop)
    (unfinished : ∀ k, k < bits.length →
      (((b :: bits).take (k + 1)).foldl (fun s b => rxTake b s) s).frameWhole = false)
    (whole : ((b :: bits).foldl (fun s b => rxTake b s) s).frameWhole = true) :
    ∃ t, Runs s t ∧ t.fsm = .handoff ∧ t.now ≤ tf + cellsTime lo hi (b :: bits)
      ∧ t.rxResult = .ok ((b :: bits).foldl (fun s b => rxTake b s) s).fetched.frame := by
  induction bits generalizing b s tf with
  | nil =>
    obtain ⟨low, high, -⟩ := spells
    rw [cellsTime_cons] at inside ⊢
    obtain ⟨t, -, runs, -, in_cell, outcome⟩ := h.sample_cell timed edge (by lia) low high
    obtain ⟨-, handoff, result⟩ := outcome.resolve_right fun h => absurd (h.1.symm.trans whole) nofun
    exact ⟨t, runs, handoff, by lia, result⟩
  | cons next bits ih =>
    obtain ⟨low, high, rest⟩ := spells
    have next_low := rest.1
    have first_cell := cellsTime_cons lo hi b (next :: bits)
    have next_cell := cellsTime_cons lo hi next bits
    have notEarly := edge.notEarly
    have notLate := edge.notLate
    obtain ⟨t, hears, sample, now_eq, -, outcome⟩ := h.sample_cell timed edge (by lia) low high
    obtain ⟨-, waiting, first, begun, taken⟩ :=
      outcome.resolve_left fun h => absurd (h.1.symm.trans (unfinished 0 (Nat.succ_pos _))) nofun
    obtain ⟨u, hears, phaseA, same, waiting, first, now_eq, risen, before⟩ :=
      hears.phaseA timed (by lia) low high waiting first (by lia) (by lia) (by lia)
    obtain ⟨v, hears, phaseB, same', edge⟩ := hears.phaseB timed late (by lia)
      (timed.delay_pos (h.cfg_eq ▸ pollTicks_pos h.accepted)) high next_low rfl waiting first now_eq risen before
    have registers : SameRegisters (rxTake b s) v := taken.trans (same.trans same')
    have all_taken := registers.foldl (next :: bits)
    obtain ⟨w, others, handoff, in_time, result⟩ := ih hears edge rest (by lia)
      (fun k inside => (registers.foldl ((next :: bits).take (k + 1))).frameWhole.trans
        (unfinished (k + 1) (Nat.succ_lt_succ inside)))
      (all_taken.frameWhole.trans whole)
    exact ⟨w, ((sample.trans phaseA).trans phaseB).trans others, handoff, by lia,
      all_taken.fetched ▸ result⟩

end

/-! ## The first edge -/

/-- Steps 0 to 3 leave the receive registers of an idle machine alone. -/
theorem settle_sameReceive_of_idle (idle : s.fsm = .idle) : SameReceive s (settle s) := by
  have requests := applyRequests_sameReceive (s := s) (by simp [idle]) s.env.input
  rw [settle, serialize_of_ne_tx (by simp [requests.fsm, idle])]
  exact requests.trans (detectEdge_sameReceive _)

theorem SameRegisters.rxStart (h : SameRegisters s t) :
    SameRegisters (Machine.rxStart s) (Machine.rxStart t) :=
  { h with nbits := rfl, need := rfl, hdr := rfl, rxOp := rfl }

/-- The first falling edge of an idle, armed machine makes a start due within the entry latency (R85, R120). -/
theorem Hears.startsAt_of_edge (h : Hears cfg level stop s) (inside : s.now < stop) (idle : s.fsm = .idle)
    (enabled : s.irqEnable = true) (nonePending : s.edgePending = false) (notHeld : s.maskHold = .none)
    (high : s.prevLevel = true) (low : level s.now = false) :
    ∃ d, d ≤ cfg.entryLatencyMax ∧ StartsAt (s.now + d) (settle s) := by
  obtain ⟨refused, settled⟩ := settle_of_idle idle notHeld (by rw [h.input inside]; rfl)
  have falls : State.fall { s with refused := refused } = true := by
    have line_eq : State.line { s with refused := refused } = false :=
      (h.line inside (by simp [idle])).trans low
    rw [State.fall, line_eq]
    exact congrArg (· && true) high
  have latched : fallingEdge { s with refused := refused } = latchEdge { s with refused := refused } := by
    simp [fallingEdge, State.armed, idle, enabled, nonePending]
  refine ⟨chooseUpTo s.cfg.entryLatencyMax s.env.draw.1, h.cfg_eq ▸ chooseUpTo_le _ _, ?_⟩
  rw [settled, detectEdge, if_pos falls, latched]
  exact ⟨idle, enabled, rfl, notHeld, rfl⟩

/-- A machine whose start is due at `T` starts the receive then. -/
theorem Hears.start (h : Hears cfg level stop s) {T : Tick} (idle : s.fsm = .idle)
    (starts : StartsAt T (settle s)) (ahead : s.now ≤ T) (inside : T < stop) (delay : 1 ≤ cfg.sampleDelay) :
    ∃ t, Hears cfg level stop t ∧ Runs s t ∧ t.fsm = .rxSample ∧ t.tBase = T ∧ t.now = T + 1
      ∧ SameRegisters (rxStart s) t := by
  obtain ⟨n, rfl⟩ := Nat.exists_eq_add_of_le ahead
  induction n generalizing s with
  | zero =>
    have tick := settle_sameTick s
    have registers := (settle_sameReceive_of_idle idle).toSameRegisters
    have steps := step_of_receive h.accepted (h.no_reset inside)
      (starts.receive_at tick.now (by rw [tick.cfg, h.cfg_eq]; exact delay))
    obtain ⟨hears, runs, now_eq⟩ := h.step inside steps
    exact ⟨_, hears, runs, rfl, tick.now, now_eq, { registers.rxStart with }⟩
  | succ n ih =>
    have registers := (settle_sameReceive_of_idle idle).toSameRegisters
    have steps := step_of_receive h.accepted (h.no_reset (by lia))
      (starts.receive_before (by rw [(settle_sameTick s).now]; lia))
    obtain ⟨hears, runs, now_eq⟩ := h.step (by lia) steps
    have instant : s.now + (n + 1) = (advanceTime (settle s)).now + n := by lia
    rw [instant] at starts inside ⊢
    have waits : StartsAt ((advanceTime (settle s)).now + n) (advanceTime (settle s)) := { starts with }
    have same : SameRegisters (rxStart s) (rxStart (advanceTime (settle s))) := { registers.rxStart with }
    obtain ⟨t, hears', runs', sampling, base, now_eq', registers'⟩ := ih hears starts.idle
      (waits.settle (by rw [hears.input (by lia)]; rfl)) (Nat.le_add_right _ _) inside
    exact ⟨t, hears', runs.trans runs', sampling, base, now_eq', same.trans registers'⟩

/-! ## The waveform as levels -/

section
variable {lo hi : Bit → Tick}

/-- The level of the released line under a console's waveform that begins at `start`. -/
def waveLevel (wave : List TickInput) (start T : Tick) : Bit :=
  ((wave[T - start]?).map fun x => !x.consoleLow).getD true

theorem consoleWave_cons (b : Bit) (bits : List Bit) :
    consoleWave lo hi (b :: bits) = List.replicate (lo b) (driveInput true)
      ++ (List.replicate (hi b) (driveInput false) ++ consoleWave lo hi bits) := by
  simp [consoleWave, consoleCell]

theorem consoleWave_length (bits : List Bit) : (consoleWave lo hi bits).length = cellsTime lo hi bits := by
  induction bits with
  | nil => rfl
  | cons b bits ih => simp [consoleWave_cons, cellsTime_cons, ih, Nat.add_assoc]

/-- A tick of a console's waveform brings nothing but the drive. -/
theorem eq_driveInput_of_mem_consoleWave {bits : List Bit} {x : TickInput} (h : x ∈ consoleWave lo hi bits) :
    x = driveInput x.consoleLow := by
  simp only [consoleWave, consoleCell, List.mem_flatMap, List.mem_append, List.mem_replicate] at h
  obtain ⟨b, -, ⟨-, rfl⟩ | ⟨-, rfl⟩⟩ := h <;> rfl

/-- The level during a run of equal inputs. -/
theorem waveLevel_of_replicate {wave before after : List TickInput} {n : Nat} {low : Bool} {start T : Tick}
    (wave_eq : wave = before ++ (List.replicate n (driveInput low) ++ after))
    (begun : start + before.length ≤ T) (inside : T < start + before.length + n) :
    waveLevel wave start T = !low := by
  have place : T - start - before.length < n := by lia
  rw [waveLevel, wave_eq, List.getElem?_append_right (by lia), List.getElem?_append_left (by simpa using place),
    List.getElem?_replicate, if_pos place]
  rfl

/-- A console's waveform shows its cells, wherever in the inputs it stands. -/
theorem spells_waveLevel {wave before after : List TickInput} {start : Tick} (bits : List Bit)
    (wave_eq : wave = before ++ (consoleWave lo hi bits ++ after)) :
    Spells lo hi (waveLevel wave start) (start + before.length) bits := by
  induction bits generalizing before with
  | nil => trivial
  | cons b bits ih =>
    rw [consoleWave_cons] at wave_eq
    have low_part := wave_eq.trans (by rw [List.append_assoc])
    have high_part : wave = (before ++ List.replicate (lo b) (driveInput true))
        ++ (List.replicate (hi b) (driveInput false) ++ (consoleWave lo hi bits ++ after)) := by
      simpa using wave_eq
    have rest : wave = (before ++ List.replicate (lo b) (driveInput true)
        ++ List.replicate (hi b) (driveInput false)) ++ (consoleWave lo hi bits ++ after) := by
      simpa using wave_eq
    refine ⟨fun T begun inside => waveLevel_of_replicate low_part begun inside, fun T begun inside => ?_, ?_⟩
    · refine waveLevel_of_replicate high_part ?_ ?_ <;> simp <;> lia
    · have shown := ih rest
      simpa [Nat.add_assoc] using shown

/-- A machine whose inputs begin with a console's waveform hears it. -/
theorem hears_consoleWave {bits : List Bit} {rest : List TickInput} (accepted : configProblem s.cfg = none)
    (released : s.devLow = false) (inputs : s.env.inputs = consoleWave lo hi bits ++ rest) :
    Hears s.cfg (waveLevel (consoleWave lo hi bits) s.now) (s.now + cellsTime lo hi bits) s where
  cfg_eq := rfl
  accepted := accepted
  drive := .of_released released
  inputs T ahead inside := by
    have place : T - s.now < (consoleWave lo hi bits).length := by rw [consoleWave_length]; lia
    have heard := List.getElem?_eq_getElem place
    rw [inputs, List.getElem?_append_left place, waveLevel, heard, Option.map_some, Option.getD_some,
      Bool.not_not, ← eq_driveInput_of_mem_consoleWave (List.getElem_mem place)]

end

end Sys2Proof.Machine

namespace Sys2Proof.Proofs

open Sys2Proof.Machine

/-- Settles O22: the first edge is detected within the entry latency, every later one within a poll, and so
each sample takes its cell's bit; the bits of the encoding make the frame whole at the last. -/
theorem wellTimedFrameIsReceivedAsSent : Obligations.WellTimedFrameIsReceivedAsSent := by
  intro s lo hi stop i rest accepted wf timed idle enabled nonePending notHeld high released inputs
  have holds := holdsFrame_encode (s := s) wf stop
  have proper (k) := frameWhole_take_encode (s := s) wf (stop := stop) (k := k)
  have hears := hears_consoleWave accepted released inputs
  have spells := spells_waveLevel (lo := lo) (hi := hi) (before := []) (after := []) (start := s.now)
    (encode s.cfg.extStop stop i) (List.append_nil _).symm
  rw [consoleWave_length]
  generalize waveLevel (consoleWave lo hi (encode s.cfg.extStop stop i)) s.now = level at hears spells
  generalize encode s.cfg.extStop stop i = bits at *
  cases bits with
  | nil => exact absurd holds.frameWhole (by simp [State.frameWhole, rxStart])
  | cons b bits =>
    have poll := pollTicks_pos accepted
    have low_part := timed.edgeSeen b
    have first_cell := cellsTime_cons lo hi b bits
    obtain ⟨d, latency, starts⟩ := hears.startsAt_of_edge (by lia) idle enabled nonePending notHeld high
      (spells.1 _ (le_refl _) (by simp; lia))
    have late := latency.trans (le_max_left _ (s.cfg.pollTicks - 1))
    have sampled := timed.sample_inside b
    obtain ⟨t, hears, first_edge, sampling, base, now_eq, registers⟩ := hears.start idle starts
      (Nat.le_add_right _ _) (by lia) (timed.delay_pos poll)
    have edge : EdgeSeen (max s.cfg.entryLatencyMax (s.cfg.pollTicks - 1)) s.now t :=
      ⟨sampling, by lia, by lia, by lia⟩
    have taken (bits) := registers.foldl bits
    obtain ⟨u, cells, handoff, in_time, result⟩ := hears.receive_cells timed (le_max_right _ _) bits edge spells
      (le_refl _) (fun k inside => (taken _).frameWhole.trans (proper (k + 1) (Nat.succ_lt_succ inside)))
      ((taken _).frameWhole.trans holds.frameWhole)
    obtain ⟨k, runs, later⟩ := Runs.exists_run (first_edge.trans cells)
    refine ⟨k, u, by lia, runs, handoff, ?_⟩
    rw [result, (taken _).fetched, holds.fetched]

end Sys2Proof.Proofs
end

section
/-! The transmit request's refusals (R106, R107), and the rule of the serializer at the end of each of its
phases (R108 to R113). -/

namespace Sys2Proof.Machine

variable {f : ProtocolFrame} {s : State} {k : Nat}

/-! ## The request -/

theorem segmentValid_iff (g : Segment) :
    segmentValid g = true ↔ (1 ≤ g.width ∧ g.width ≤ 32) ∧ g.value < 2 ^ g.width := by
  simp only [segmentValid, Bool.and_eq_true, decide_eq_true_eq]
  rfl

/-- R106's four conditions. -/
theorem frameValid_iff (cfg : Config) (f : ProtocolFrame) :
    frameValid cfg f = true ↔ 1 ≤ f.length ∧ (∀ g ∈ f, 1 ≤ g.width ∧ g.width ≤ 32)
      ∧ (∀ g ∈ f, g.value < 2 ^ g.width) ∧ (f.map Segment.width).sum ≤ cfg.maxFrameBits := by
  have some_segment : f ≠ [] ↔ 1 ≤ f.length := List.length_pos_iff.symm
  simp only [frameValid, Bool.and_eq_true, Bool.not_eq_true', List.isEmpty_eq_false_iff, some_segment,
    List.all_eq_true, segmentValid_iff, forall₂_and, decide_eq_true_eq, and_assoc]
  rfl

/-- A request that is not accepted is refused (R107). -/
theorem transmit_of_not_accepted
    (h : ¬(s.fsm = .handoff ∧ (∃ g, s.rxResult = .ok g) ∧ frameValid s.cfg f = true)) :
    transmit f s = refuseRequest s := by
  rcases transmit_cases f s with ⟨accepted, -⟩ | ⟨-, refused⟩
  · exact absurd ((transmitAccepted_iff f s).mp accepted) h
  · exact refused

/-! ## The end of a phase -/

section
variable (tx : s.fsm = .tx) (due : s.now = s.tUntil) (at_ : s.txPc = .bit k)
include tx due at_

theorem txRule_of_startWait (sub : s.txSub = .startWait) : txRule s = some (beginSymbol k s) := by
  simp [txRule, tx, due, at_, sub]

theorem txRule_of_high (sub : s.txSub = .high) : txRule s = some (beginSymbol (k + 1) s) := by
  simp [txRule, tx, due, at_, sub]

theorem txRule_of_low_data {b : Bit} (sub : s.txSub = .low) (symbol : s.txProg[k]? = some b) :
    txRule s = some (releaseBit b s) := by
  simp [txRule, tx, due, at_, sub, endLow, symbolAt_eq_data.mpr symbol]

theorem txRule_of_low_stop (sub : s.txSub = .low) (symbol : s.txProg[k]? = none) :
    txRule s = some (releaseStop s) := by
  simp [txRule, tx, due, at_, sub, endLow, symbolAt_eq_stop.mpr symbol]

theorem txRule_of_doneWait (sub : s.txSub = .doneWait) : txRule s = some (txComplete s) := by
  simp [txRule, tx, due, at_, sub]

end

end Sys2Proof.Machine

namespace Sys2Proof.Proofs

open Sys2Proof.Machine

/-- Settles O29: without one of R106's conditions the request is not accepted. -/
theorem frameValidationConditions : Obligations.FrameValidationConditions := by
  intro f s
  refine ⟨frameValid_iff s.cfg f, fun invalid => transmit_of_not_accepted fun accepted => ?_⟩
  obtain ⟨-, -, valid⟩ := accepted
  exact invalid ((frameValid_iff s.cfg f).mp valid)

/-- Settles O31: each of R107's cases contradicts one condition of acceptance. -/
theorem meaninglessTransmitsAreRefused : Obligations.MeaninglessTransmitsAreRefused := by
  intro f s meaningless
  refine transmit_of_not_accepted fun accepted => ?_
  obtain ⟨handoff, ⟨g, ok⟩, valid⟩ := accepted
  rcases meaningless with elsewhere | ⟨info, err⟩ | no_result | invalid
  · exact elsewhere handoff
  · cases ok.symm.trans err
  · cases ok.symm.trans no_result
  · cases valid.symm.trans invalid

/-- Settles O33: both phases end in `beginSymbol`, whose low time is the symbol's own. -/
theorem symbolsStartLow : Obligations.SymbolsStartLow := by
  intro s k j tx due at_ phase
  have rule : txRule s = some (beginSymbol j s) := by
    rcases phase with ⟨sub, rfl⟩ | ⟨sub, rfl⟩
    · exact txRule_of_startWait tx due at_ sub
    · exact txRule_of_high tx due at_ sub
  refine ⟨symbolLow s.cfg (symbolAt s.txProg j), rule, fun zero => ?_, fun one => ?_, fun stop => ?_⟩
  · rw [symbolAt_eq_data.mpr zero, symbolLow]
  · rw [symbolAt_eq_data.mpr one, symbolLow]
  · rw [symbolAt_eq_stop.mpr (List.getElem?_eq_none stop.ge), symbolLow]

/-- Settles O34: the low part of a data bit ends in `releaseBit`. -/
theorem dataBitsAreReleased : Obligations.DataBitsAreReleased := fun _ _ tx due at_ sub =>
  ⟨txRule_of_low_data tx due at_ sub, txRule_of_low_data tx due at_ sub⟩

/-- Settles O35: the stop symbol is the one past the program, and completion re-arms (R121). -/
theorem stopSymbolThenCompletion : Obligations.StopSymbolThenCompletion := by
  intro s k tx due at_
  refine ⟨fun sub stop => ?_, fun sub enabled pending => ?_, fun sub not_pending => ?_⟩
  · exact ⟨_, chooseUpTo_le _ _, txRule_of_low_stop tx due at_ sub (List.getElem?_eq_none stop.ge)⟩
  · rw [txRule_of_doneWait tx due at_ sub, txComplete, rearm, if_pos (by simp [enabled, pending])]
  · rw [txRule_of_doneWait tx due at_ sub, txComplete, rearm,
      if_neg (by rcases not_pending with e | e <;> simp [e])]

end Sys2Proof.Proofs
end

section
/-! What a tick can do to the serializer (R116, R117, R119): in `TX` the requests leave it alone, the rules
of step 1 read nothing but it, the time and the draws, and steps 2 to 5 leave it alone. -/

namespace Sys2Proof.Machine

variable {s t u : State}

/-! ## The serializer's fields -/

/-- The serializer and the drive of the line are the same, and so is whether it runs. -/
structure SameSerializer (s t : State) : Prop where
  cfg : t.cfg = s.cfg
  running : t.fsm = .tx ↔ s.fsm = .tx
  devLow : t.devLow = s.devLow
  txProg : t.txProg = s.txProg
  txPc : t.txPc = s.txPc
  txSub : t.txSub = s.txSub
  tSym : t.tSym = s.tSym
  tUntil : t.tUntil = s.tUntil

namespace SameSerializer

@[refl] theorem refl (s : State) : SameSerializer s s := ⟨rfl, .rfl, rfl, rfl, rfl, rfl, rfl, rfl⟩

@[trans] theorem trans (h : SameSerializer s t) (g : SameSerializer t u) : SameSerializer s u where
  cfg := g.cfg.trans h.cfg
  running := g.running.trans h.running
  devLow := g.devLow.trans h.devLow
  txProg := g.txProg.trans h.txProg
  txPc := g.txPc.trans h.txPc
  txSub := g.txSub.trans h.txSub
  tSym := g.tSym.trans h.tSym
  tUntil := g.tUntil.trans h.tUntil

theorem symm (h : SameSerializer s t) : SameSerializer t s :=
  ⟨h.cfg.symm, h.running.symm, h.devLow.symm, h.txProg.symm, h.txPc.symm, h.txSub.symm, h.tSym.symm,
    h.tUntil.symm⟩

end SameSerializer

/-! ## Steps 2 to 5 leave the serializer alone -/

theorem detectEdge_sameSerializer (s : State) : SameSerializer s (detectEdge s) := by
  obtain ⟨_, _, _, _, _, detected⟩ := detectEdge_frame s
  rw [detected]
  exact { SameSerializer.refl s with }

theorem ReceiveRule.sameSerializer (rule : ReceiveRule s t) : SameSerializer s t := by
  have running : t.fsm = .tx ↔ s.fsm = .tx := iff_of_false rule.fsm_ne_tx.2 rule.fsm_ne_tx.1
  cases rule <;> exact { SameSerializer.refl s with running := running }

theorem rxRepeat_sameSerializer {fuel : Nat} (h : rxRepeat fuel s = .next t) : SameSerializer s t := by
  induction fuel generalizing s with
  | zero =>
    cases h
    exact .refl _
  | succ fuel ih =>
    unfold rxRepeat at h
    rcases rxRule_next s with none_due | ⟨u, due⟩
    · rw [none_due] at h
      cases h
      exact .refl _
    · rw [due] at h
      exact (rxRule_rule due).sameSerializer.trans (ih h)

/-- The state after step 0 of the coming tick. -/
def State.requested (s : State) : State := applyRequests s.env.input s

/-- A tick whose reset, if it has one, is left out: steps 0 to 5 of R132. -/
def Ticks (s t : State) : Prop := ∃ u, receive (settle s) = .next u ∧ t = advanceTime u

theorem exists_ticks (s : State) : ∃ t, Ticks s t := by
  obtain ⟨u, received⟩ := rxRepeat_next 2 (settle s)
  exact ⟨_, u, received, rfl⟩

theorem Ticks.nextTick (tick : Ticks s t) : NextTick s t := by
  obtain ⟨u, received, rfl⟩ := tick
  exact nextTick_of_receive received

theorem Ticks.step (tick : Ticks s t) (accepted : configProblem s.cfg = none)
    (no_reset : s.env.input.reset = false) : step s = .next t := by
  obtain ⟨u, received, rfl⟩ := tick
  exact step_of_receive accepted no_reset received

/-- The serializer of a tick is what steps 0 and 1 leave. -/
theorem Ticks.sameSerializer (tick : Ticks s t) : SameSerializer (serialize s.requested) t := by
  obtain ⟨u, received, rfl⟩ := tick
  exact ((detectEdge_sameSerializer _).trans (rxRepeat_sameSerializer received)).trans
    { SameSerializer.refl u with }

/-! ## Step 0 in `TX` -/

/-- The serializer, the time and the draws to come are the same: all that the rules of step 1 read. -/
structure SameTransmitter (s t : State) : Prop extends SameSerializer s t where
  now : t.now = s.now
  draws : t.env.draws = s.env.draws
  drawIx : t.env.drawIx = s.env.drawIx

namespace SameTransmitter

@[refl] theorem refl (s : State) : SameTransmitter s s := ⟨.refl s, rfl, rfl, rfl⟩

@[trans] theorem trans (h : SameTransmitter s t) (g : SameTransmitter t u) : SameTransmitter s u where
  toSameSerializer := h.toSameSerializer.trans g.toSameSerializer
  now := g.now.trans h.now
  draws := g.draws.trans h.draws
  drawIx := g.drawIx.trans h.drawIx

/-- What keeps a running transmitter can be repeated over any list of requests. -/
theorem foldl {α : Type} {f : State → α → State} (hf : ∀ s a, s.fsm = .tx → SameTransmitter s (f s a))
    (l : List α) (s : State) (tx : s.fsm = .tx) : SameTransmitter s (l.foldl f s) := by
  induction l generalizing s with
  | nil => exact refl s
  | cons a l ih =>
    have first := hf s a tx
    exact first.trans (ih _ (first.running.mpr tx))

end SameTransmitter

theorem maskAttempt_sameTransmitter (tx : s.fsm = .tx) : SameTransmitter s (maskAttempt s) := by
  rcases maskAttempt_cases s with ⟨-, h⟩ | ⟨-, -, h⟩ | ⟨-, idle, -⟩ | ⟨-, idle, -⟩
  · exact h ▸ { SameTransmitter.refl s with }
  · exact h ▸ { SameTransmitter.refl s with }
  · cases tx.symm.trans idle
  · cases tx.symm.trans idle

theorem maskResume_sameTransmitter (tx : s.fsm = .tx) : SameTransmitter s (maskResume s) := by
  rcases maskResume_cases s with ⟨-, h⟩ | ⟨-, h⟩ | ⟨-, idle, -⟩ | ⟨-, -, h⟩
  · rw [h]
  · rw [h]
    exact maskAttempt_sameTransmitter tx
  · cases tx.symm.trans idle
  · rw [h]

theorem flushRequest_sameTransmitter (s : State) (r : FlushRequest) (tx : s.fsm = .tx) :
    SameTransmitter s (flushRequest s r) := by
  cases r with
  | mask =>
    show SameTransmitter s (mask s)
    unfold mask
    split
    · exact maskAttempt_sameTransmitter tx
    · exact .refl s
  | unmask =>
    show SameTransmitter s (unmask s)
    rcases unmask_cases s with ⟨-, h⟩ | ⟨-, -, h⟩ | ⟨-, -, h⟩ <;> rw [h]
    all_goals exact { SameTransmitter.refl s with }

/-- In `TX` no request touches the transmitter, nor takes a draw (R107, R124, R126). -/
theorem applyRequests_sameTransmitter (inp : TickInput) (tx : s.fsm = .tx) :
    SameTransmitter s (applyRequests inp s) := by
  obtain ⟨refused, dispatched⟩ := dispatcherRequests_frame (s := s) (by simp [tx]) inp.dispatcher
  rw [applyRequests, dispatched]
  have resumed := maskResume_sameTransmitter (s := { s with refused := refused }) tx
  exact .trans (t := { s with refused := refused }) { SameTransmitter.refl s with } <|
    resumed.trans (.foldl flushRequest_sameTransmitter _ _ (resumed.running.mpr tx))

/-! ## Step 1 reads only the transmitter -/

namespace SameTransmitter

variable (h : SameTransmitter s t)
include h

/-- The same draws to come give the same draw, and leave the same draws. -/
theorem draw : t.env.draw.1 = s.env.draw.1 ∧ t.env.draw.2.draws = s.env.draw.2.draws
    ∧ t.env.draw.2.drawIx = s.env.draw.2.drawIx := by
  rw [Env.draw, Env.draw, h.draws, h.drawIx]
  cases s.env.draws <;> exact ⟨rfl, rfl, rfl⟩

theorem beginSymbol (k : Nat) : SameTransmitter (beginSymbol k s) (beginSymbol k t) :=
  { h with
    txPc := rfl
    txSub := rfl
    tSym := h.now
    tUntil := by simp [h.now, h.cfg, h.txProg]
    devLow := rfl }

theorem releaseBit (b : Bit) : SameTransmitter (releaseBit b s) (releaseBit b t) :=
  { h with
    txSub := rfl
    tSym := h.now
    tUntil := by simp [h.now, h.cfg]
    devLow := rfl }

theorem releaseStop : SameTransmitter (releaseStop s) (releaseStop t) := by
  obtain ⟨drawn, draws, drawIx⟩ := h.draw
  exact { h with
    txSub := rfl
    tSym := h.now
    tUntil := by simp [h.now, h.cfg, drawn]
    devLow := rfl
    draws := draws
    drawIx := drawIx }

theorem endLow (k : Nat) : SameTransmitter (endLow k s) (endLow k t) := by
  rw [Machine.endLow, Machine.endLow, h.txProg]
  split
  · exact h.releaseBit _
  · exact h.releaseStop

theorem txComplete : SameTransmitter (txComplete s) (txComplete t) where
  cfg := by simp [h.cfg]
  running := by simp
  devLow := by simp [h.devLow]
  txProg := by simp [h.txProg]
  txPc := by simp
  txSub := by simp [h.txSub]
  tSym := by simp [h.tSym]
  tUntil := by simp [h.tUntil]
  now := by simp [h.now]
  draws := by simp [h.draws]
  drawIx := by simp [h.drawIx]

/-- The same rule of the serializer holds, and has the same effect (R116, R117). -/
theorem txRule : Option.Rel SameTransmitter (txRule s) (txRule t) := by
  rcases txRule_cases s with none_holds |
    ⟨tx, due, k, at_, ⟨sub, rule⟩ | ⟨sub, rule⟩ | ⟨sub, rule⟩ | ⟨sub, rule⟩⟩
  · have none_holds' : Machine.txRule t = none := by
      rw [txRule_eq_none_iff, ne_eq, h.running, h.now, h.tUntil, h.txPc]
      exact txRule_eq_none_iff.mp none_holds
    rw [none_holds, none_holds']
    exact .none
  all_goals
    have tx' := h.running.mpr tx
    have due' : t.now = t.tUntil := by rw [h.now, h.tUntil, due]
    have at' := h.txPc.trans at_
    have sub' := h.txSub.trans sub
    rw [rule]
  · rw [txRule_of_startWait tx' due' at' sub']
    exact .some (h.beginSymbol k)
  · have rule' : Machine.txRule t = some (Machine.endLow k t) := by
      simp [Machine.txRule, tx', due', at', sub']
    rw [rule']
    exact .some (h.endLow k)
  · rw [txRule_of_high tx' due' at' sub']
    exact .some (h.beginSymbol (k + 1))
  · rw [txRule_of_doneWait tx' due' at' sub']
    exact .some h.txComplete

theorem txRepeat (fuel : Nat) : SameTransmitter (txRepeat fuel s) (txRepeat fuel t) := by
  induction fuel generalizing s t with
  | zero => exact h
  | succ fuel ih =>
    have rules := h.txRule
    rw [Machine.txRepeat, Machine.txRepeat]
    cases rule : Machine.txRule s <;> cases rule' : Machine.txRule t <;> rw [rule, rule'] at rules
    · exact h
    · cases rules
    · cases rules
    · cases rules with
      | some same => exact ih same

end SameTransmitter

/-- In `TX` the inputs of a tick do not matter to the serializer. -/
theorem Ticks.sameSerializer_of_tx {x : TickInput} {xs : List TickInput} (tx : s.fsm = .tx)
    (tick : Ticks (s.withInputs (x :: xs)) t) : SameSerializer (serialize s) t := by
  have requests : SameTransmitter s (s.withInputs (x :: xs)).requested :=
    .trans (t := s.withInputs (x :: xs)) { SameTransmitter.refl s with }
      (applyRequests_sameTransmitter _ tx)
  exact (requests.txRepeat 2).toSameSerializer.trans tick.sameSerializer

/-! ## What starts a transmission -/

theorem SerializerRule.txProg_eq {k : Nat} (rule : SerializerRule k s t) : t.txProg = s.txProg := by
  cases rule <;> rfl

theorem txRule_txProg (h : txRule s = some t) : t.txProg = s.txProg := by
  rcases txRule_cases s with
    none_holds | ⟨-, -, k, -, ⟨sub, rule⟩ | ⟨-, rule⟩ | ⟨sub, rule⟩ | ⟨sub, rule⟩⟩
  · simp [none_holds] at h
  all_goals obtain rfl := Option.some.inj (rule.symm.trans h)
  · rfl
  · exact (endLow_rule k s).txProg_eq
  · rfl
  · exact txComplete_txProg s

/-- The program is written at acceptance only (R59). -/
theorem txRepeat_txProg (fuel : Nat) (s : State) : (txRepeat fuel s).txProg = s.txProg := by
  induction fuel generalizing s with
  | zero => rfl
  | succ fuel ih =>
    unfold txRepeat
    split
    · rfl
    · next t rule => exact (ih t).trans (txRule_txProg rule)

/-- The flush sequence's part of step 0 starts no transmission, and leaves the program. -/
theorem applyRequests_dispatched (inp : TickInput) (s : State) :
    (applyRequests inp s).fsm = (inp.dispatcher.foldl dispatcherRequest s).fsm
      ∧ (applyRequests inp s).txProg = (inp.dispatcher.foldl dispatcherRequest s).txProg := by
  obtain ⟨_, _, _, _, _, -, -, flushed⟩ := flushWrites_trans
    (maskResume_writes (inp.dispatcher.foldl dispatcherRequest s)) (flushRequests_writes inp.flush _)
  rw [applyRequests, flushed]
  exact ⟨rfl, rfl⟩

/-- A request of the dispatcher starts a transmission, or it releases, or it is refused (R105, R107, R124). -/
theorem dispatcherRequest_cases (s : State) (r : DispatcherRequest) :
    (∃ f g, r = .transmit f ∧ frameValid s.cfg f = true ∧ s.fsm = .handoff ∧ s.rxResult = .ok g
        ∧ (dispatcherRequest s r).fsm = .tx ∧ (dispatcherRequest s r).txProg = wireBits f)
      ∨ (dispatcherRequest s r).fsm = .idle ∨ dispatcherRequest s r = refuseRequest s := by
  cases r with
  | transmit f =>
    rcases transmit_cases f s with ⟨accepted, started⟩ | ⟨-, refused⟩
    · obtain ⟨handoff, ⟨g, ok⟩, valid⟩ := (transmitAccepted_iff f s).mp accepted
      exact .inl ⟨f, g, rfl, valid, handoff, ok, congrArg State.fsm started, congrArg State.txProg started⟩
    · exact .inr (.inr refused)
  | release =>
    rcases release_cases s with ⟨-, released⟩ | ⟨-, refused⟩
    · exact .inr (.inl ((congrArg State.fsm released).trans (rearm_fsm _)))
    · exact .inr (.inr refused)

/-- Outside the hand-off the dispatcher's requests leave the control state and the program. -/
theorem dispatcherRequests_keep (elsewhere : s.fsm ≠ .handoff) (rs : List DispatcherRequest) :
    (rs.foldl dispatcherRequest s).fsm = s.fsm ∧ (rs.foldl dispatcherRequest s).txProg = s.txProg := by
  obtain ⟨_, refused⟩ := dispatcherRequests_frame elsewhere rs
  rw [refused]
  exact ⟨rfl, rfl⟩

/-- Where a tick's dispatcher requests start a transmission, one of them is an accepted transmit: those before
it are refused, and so are those after it (R105, R107, R119). -/
theorem dispatcherRequests_start (rs : List DispatcherRequest) (not_tx : s.fsm ≠ .tx)
    (tx : (rs.foldl dispatcherRequest s).fsm = .tx) :
    ∃ f g, DispatcherRequest.transmit f ∈ rs ∧ frameValid s.cfg f = true ∧ s.fsm = .handoff
      ∧ s.rxResult = .ok g ∧ (rs.foldl dispatcherRequest s).txProg = wireBits f := by
  induction rs generalizing s with
  | nil => exact absurd tx not_tx
  | cons r rs ih =>
    rw [List.foldl_cons] at tx ⊢
    rcases dispatcherRequest_cases s r with
      ⟨f, g, rfl, valid, handoff, ok, started, program⟩ | idle | refused
    · have kept := (dispatcherRequests_keep (s := dispatcherRequest s (.transmit f)) (by simp [started]) rs).2
      exact ⟨f, g, List.mem_cons_self, valid, handoff, ok, kept.trans program⟩
    · have kept := (dispatcherRequests_keep (s := dispatcherRequest s r) (by simp [idle]) rs).1
      cases (idle.symm.trans kept.symm).trans tx
    · rw [refused] at tx ⊢
      obtain ⟨f, g, presented, rest⟩ := ih (s := refuseRequest s) not_tx tx
      exact ⟨f, g, List.mem_cons_of_mem _ presented, rest⟩

end Sys2Proof.Machine

namespace Sys2Proof.Proofs

open Sys2Proof.Machine

/-- Settles O37: both ticks leave the serializer that step 1 alone makes of the state. -/
theorem nothingDisturbsATransmission : Obligations.NothingDisturbsATransmission := by
  intro s x y xs ys accepted tx no_reset_x no_reset_y
  obtain ⟨t, tick_x⟩ := exists_ticks (s.withInputs (x :: xs))
  obtain ⟨u, tick_y⟩ := exists_ticks (s.withInputs (y :: ys))
  have same : SameSerializer u t :=
    (tick_y.sameSerializer_of_tx tx).symm.trans (tick_x.sameSerializer_of_tx tx)
  exact ⟨t, u, tick_x.step accepted no_reset_x, tick_y.step accepted no_reset_y, same.devLow, same.txProg,
    same.txPc, same.txSub, same.tSym, same.tUntil⟩

/-- Settles O38: of a tick only its requests start a transmission, and among them only an accepted transmit. -/
theorem onlyARequestTransmits : Obligations.OnlyARequestTransmits := by
  intro s t steps not_tx tx
  rcases step_cases s with ⟨r, -, refused⟩ | ⟨-, -, resets⟩ | ⟨-, -, u, received, ends⟩
  · cases refused.symm.trans steps
  · cases resets.symm.trans steps
    simp [applyReset] at tx
  · cases ends.symm.trans steps
    have same : SameSerializer (serialize s.requested) (advanceTime u) :=
      Ticks.sameSerializer ⟨u, received, rfl⟩
    obtain ⟨fsm, txProg⟩ := applyRequests_dispatched s.env.input s
    have requested : s.requested.fsm = .tx := by
      by_contra not_requested
      rw [serialize_of_ne_tx not_requested] at same
      exact not_requested (same.running.mp tx)
    obtain ⟨f, g, presented, valid, handoff, ok, program⟩ :=
      dispatcherRequests_start s.env.input.dispatcher not_tx (fsm.symm.trans requested)
    refine ⟨f, g, presented, valid, handoff, ok, ?_⟩
    calc (advanceTime u).txProg
        = (serialize s.requested).txProg := same.txProg
      _ = s.requested.txProg := txRepeat_txProg 2 _
      _ = wireBits f := txProg.trans program

end Sys2Proof.Proofs
end

section
/-! A whole transmission (R115): the closed form is cut into the serializer's phases. In each phase the drive
keeps its level for the phase's own time, and in the tick of its end the next phase begins. -/

namespace Sys2Proof.Machine

variable {s t u : State} {cfg : Config} {prog : List Bit} {k : Nat} {sub : TxSub} {T : Tick}

/-! ## Ticks that follow a waveform -/

/-- The serializer runs and is off its stop marker. -/
def Transmitting (s : State) : Prop := s.fsm = .tx ∧ s.txPc ≠ .stop

/-- From `s` to `u` the device drives the line as the list says, tick by tick, and transmits all the while. -/
inductive Sends : List Bool → State → State → Prop
  | done (s : State) : Sends [] s s
  | tick {b : Bool} {wave : List Bool} {s t u : State} (tick : Ticks s t) (drive : t.devLow = b)
      (transmitting : Transmitting t) (rest : Sends wave t u) : Sends (b :: wave) s u

theorem Sends.append {v w : List Bool} (h : Sends v s t) (g : Sends w t u) : Sends (v ++ w) s u := by
  induction h with
  | done => exact g
  | tick first drive transmitting _ ih => exact .tick first drive transmitting (ih g)

/-- What follows a waveform is a run, if no reset comes; and the run goes on from its end. -/
theorem Sends.run_add {wave : List Bool} (h : Sends wave s u) (m : Nat) (accepted : configProblem s.cfg = none)
    (listed : listedNoReset (wave.length + m) s) :
    run (wave.length + m) s = run m u ∧ listedNoReset m u ∧ u.cfg = s.cfg := by
  induction h with
  | done s =>
    rw [List.length_nil, Nat.zero_add] at listed ⊢
    exact ⟨rfl, listed, rfl⟩
  | tick first _ _ _ ih =>
    rw [List.length_cons, Nat.add_right_comm] at listed ⊢
    have next := first.nextTick
    obtain ⟨runs, listed', cfg_eq⟩ := ih (next.cfg ▸ accepted) (listed.next next)
    exact ⟨(run_succ (first.step accepted listed.input)).trans runs, listed', cfg_eq.trans next.cfg⟩

/-- Each tick of the waveform, as a run from its beginning. -/
theorem Sends.run_get {wave : List Bool} (h : Sends wave s u) (accepted : configProblem s.cfg = none)
    (listed : listedNoReset wave.length s) (k : Nat) (inside : k < wave.length) :
    ∃ t, run (k + 1) s = .next t ∧ t.devLow = wave[k] ∧ Transmitting t := by
  induction h generalizing k with
  | done => exact absurd inside (Nat.not_lt_zero k)
  | tick first drive transmitting _ ih =>
    have next := first.nextTick
    rw [run_succ (first.step accepted listed.input)]
    cases k with
    | zero => exact ⟨_, rfl, drive, transmitting⟩
    | succ k => exact ih (next.cfg ▸ accepted) (listed.next next) k (Nat.lt_of_succ_lt_succ inside)

/-- From `s` a state with `P` is reached along the waveform. -/
def Reaches (wave : List Bool) (P : State → Prop) (s : State) : Prop := ∃ u, Sends wave s u ∧ P u

theorem Reaches.append {P Q : State → Prop} {v w : List Bool} (h : Reaches v P s)
    (g : ∀ u, P u → Reaches w Q u) : Reaches (v ++ w) Q s := by
  obtain ⟨t, sends, p⟩ := h
  obtain ⟨u, sends', q⟩ := g t p
  exact ⟨u, sends.append sends', q⟩

/-! ## One phase -/

/-- The serializer sends `prog` and stands in a phase of symbol `k` that ends at `T` (R43, R44); the device
pulls the line low in the low part and only there (R93). -/
structure InPhase (cfg : Config) (prog : List Bit) (k : Nat) (sub : TxSub) (T : Tick) (s : State) : Prop where
  cfg : s.cfg = cfg
  running : s.fsm = .tx
  devLow : s.devLow = (sub == .low)
  txProg : s.txProg = prog
  txPc : s.txPc = .bit k
  txSub : s.txSub = sub
  tUntil : s.tUntil = T

/-- In the coming tick, after its requests, a phase of symbol `k` ends. -/
def PhaseEnds (cfg : Config) (prog : List Bit) (k : Nat) (sub : TxSub) (s : State) : Prop :=
  InPhase cfg prog k sub s.now s.requested

@[simp] theorem requested_now (s : State) : s.requested.now = s.now :=
  (applyRequests_sameTick s.env.input s).now

theorem PhaseEnds.due (h : PhaseEnds cfg prog k sub s) : s.requested.now = s.requested.tUntil :=
  (requested_now s).trans h.tUntil.symm

namespace InPhase

theorem of_same (h : InPhase cfg prog k sub T s) (same : SameSerializer s t) : InPhase cfg prog k sub T t where
  cfg := same.cfg.trans h.cfg
  running := same.running.mpr h.running
  devLow := same.devLow.trans h.devLow
  txProg := same.txProg.trans h.txProg
  txPc := same.txPc.trans h.txPc
  txSub := same.txSub.trans h.txSub
  tUntil := same.tUntil.trans h.tUntil

theorem requested (h : InPhase cfg prog k sub T s) : InPhase cfg prog k sub T s.requested :=
  h.of_same (applyRequests_sameTransmitter _ h.running).toSameSerializer

/-- Before its end nothing happens in a phase. -/
theorem serialize_of_lt (h : InPhase cfg prog k sub T s) (before : s.now < T) : serialize s = s := by
  simp [serialize, txRepeat, txRule_none_of_lt (s := s) (h.tUntil ▸ before)]

/-- The tick in which step 1 leaves a phase drives the phase's level. -/
theorem ticks (h : InPhase cfg prog k sub T (serialize s.requested)) :
    ∃ t, Ticks s t ∧ t.now = s.now + 1 ∧ t.devLow = (sub == .low) ∧ Transmitting t
      ∧ InPhase cfg prog k sub T t.requested := by
  obtain ⟨t, tick⟩ := exists_ticks s
  have phase := h.of_same tick.sameSerializer
  exact ⟨t, tick, tick.nextTick.now, phase.devLow, ⟨phase.running, by simp [phase.txPc]⟩, phase.requested⟩

/-- A phase keeps its level until the tick of its end. -/
theorem reaches_end {n : Nat} (h : InPhase cfg prog k sub T s.requested) (ahead : s.now + n = T) :
    Reaches (List.replicate n (sub == .low)) (PhaseEnds cfg prog k sub) s := by
  induction n generalizing s with
  | zero =>
    subst ahead
    exact ⟨s, .done s, h⟩
  | succ n ih =>
    have quiet : serialize s.requested = s.requested := h.serialize_of_lt (by rw [requested_now]; lia)
    obtain ⟨t, tick, next, drive, transmitting, phase⟩ := ticks (s := s) (by rwa [quiet])
    obtain ⟨u, sends, ends⟩ := ih phase (by lia)
    exact ⟨u, .tick tick drive transmitting sends, ends⟩

/-- A phase that begins in the coming tick keeps its level for its own time, the tick of its beginning
included. -/
theorem begins {n : Nat} (h : InPhase cfg prog k sub (s.now + n) (serialize s.requested)) (lasts : 1 ≤ n) :
    Reaches (List.replicate n (sub == .low)) (PhaseEnds cfg prog k sub) s := by
  obtain ⟨n, rfl⟩ := Nat.exists_eq_add_of_le' lasts
  obtain ⟨t, tick, next, drive, transmitting, phase⟩ := ticks h
  obtain ⟨u, sends, ends⟩ := phase.reaches_end (n := n) (by lia)
  exact ⟨u, .tick tick drive transmitting sends, ends⟩

end InPhase

/-! ## From phase to phase -/

theorem serialize_of_rule (rule : txRule s = some t) (quiet : txRule t = none) : serialize s = t := by
  simp [serialize, txRepeat, rule, quiet]

theorem serialize_of_rules (rule : txRule s = some t) (next : txRule t = some u) : serialize s = u := by
  simp [serialize, txRepeat, rule, next]

/-- In the coming tick the low part of symbol `k` begins (R108, R111). -/
def SymbolBegins (cfg : Config) (prog : List Bit) (k : Nat) (s : State) : Prop :=
  InPhase cfg prog k .low (s.now + symbolLow cfg (symbolAt prog k)) (serialize s.requested)

/-- In the coming tick the serializer completes (R113), with the line released. -/
def Completes (s : State) : Prop := ∃ r, r.devLow = false ∧ serialize s.requested = txComplete r

/-- A data bit's cell, by its two phases (R109, R110). -/
theorem deviceCell_eq (cfg : Config) (b : Bit) : deviceCell cfg b
    = List.replicate (symbolLow cfg (.data b)) true ++ List.replicate (bitHigh cfg b) false := by
  cases b <;> rfl

section
variable (accepted : parametersInRange cfg = true)
include accepted

/-- A rule that begins a symbol is the last of its tick. -/
theorem symbolBegins_of_rule (tx : s.requested.fsm = .tx) (same_cfg : s.requested.cfg = cfg)
    (same_prog : s.requested.txProg = prog) (rule : txRule s.requested = some (beginSymbol k s.requested)) :
    SymbolBegins cfg prog k s := by
  subst same_cfg same_prog
  have now_eq := requested_now s
  rw [SymbolBegins, serialize_of_rule rule
    (txRule_none_of_lt (Nat.lt_add_of_pos_right (symbolLow_pos accepted _))), ← now_eq]
  exact ⟨rfl, tx, rfl, rfl, rfl, rfl, rfl⟩

/-- The start delay ends with the first symbol's edge (R108). -/
theorem PhaseEnds.symbol_of_startWait (h : PhaseEnds cfg prog k .startWait s) : SymbolBegins cfg prog k s :=
  symbolBegins_of_rule accepted h.running h.cfg h.txProg
    (txRule_of_startWait h.running h.due h.txPc h.txSub)

/-- A data bit's cell ends with the next symbol's edge (R111). -/
theorem PhaseEnds.symbol_of_high (h : PhaseEnds cfg prog k .high s) : SymbolBegins cfg prog (k + 1) s :=
  symbolBegins_of_rule accepted h.running h.cfg h.txProg
    (txRule_of_high h.running h.due h.txPc h.txSub)

/-- A symbol's low part (R109, R110, R112). -/
theorem SymbolBegins.reaches (h : SymbolBegins cfg prog k s) :
    Reaches (List.replicate (symbolLow cfg (symbolAt prog k)) true) (PhaseEnds cfg prog k .low) s :=
  InPhase.begins h (symbolLow_pos accepted _)

/-- The released part of a data bit (R109, R110). -/
theorem PhaseEnds.reaches_of_low {b : Bit} (h : PhaseEnds cfg prog k .low s) (symbol : prog[k]? = some b) :
    Reaches (List.replicate (bitHigh cfg b) false) (PhaseEnds cfg prog k .high) s := by
  have rule := txRule_of_low_data h.running h.due h.txPc h.txSub
    (h.txProg.symm ▸ symbol)
  have lasts := bitHigh_pos accepted b
  have quiet : txRule (releaseBit b s.requested) = none :=
    txRule_none_of_lt (Nat.lt_add_of_pos_right (h.cfg.symm ▸ lasts))
  refine InPhase.begins (sub := .high) ?_ lasts
  rw [serialize_of_rule rule quiet]
  exact { h with devLow := rfl, txSub := rfl, tUntil := by simp [h.cfg] }

/-- One data bit: its cell, and then the next symbol begins. -/
theorem SymbolBegins.reaches_next {b : Bit} (h : SymbolBegins cfg prog k s) (symbol : prog[k]? = some b) :
    Reaches (deviceCell cfg b) (SymbolBegins cfg prog (k + 1)) s := by
  have low := h.reaches accepted
  rw [symbolAt_eq_data.mpr symbol] at low
  rw [deviceCell_eq]
  obtain ⟨u, sends, high⟩ := low.append fun v ends => ends.reaches_of_low accepted symbol
  exact ⟨u, sends, high.symbol_of_high accepted⟩

/-- The cells of all data bits, and then the stop symbol begins. -/
theorem SymbolBegins.reaches_stop {before bits : List Bit} (split : before ++ bits = prog)
    (h : SymbolBegins cfg prog before.length s) :
    Reaches (bits.flatMap (deviceCell cfg)) (SymbolBegins cfg prog prog.length) s := by
  induction bits generalizing before s with
  | nil =>
    rw [List.append_nil] at split
    exact ⟨s, .done s, split ▸ h⟩
  | cons b bits ih =>
    have symbol : prog[before.length]? = some b := by simp [← split]
    rw [List.flatMap_cons]
    refine (h.reaches_next accepted symbol).append fun u next => ih (before := before ++ [b]) ?_ ?_
    · simp [← split]
    · simpa using next

end

/-- The done delay, and then the completion (R112, R113): with a delay of 0 both fall into the tick that ends
the stop pulse. -/
theorem PhaseEnds.reaches_completion (h : PhaseEnds cfg prog prog.length .low s) :
    ∃ d, d ≤ cfg.txDoneMax ∧ Reaches (List.replicate d false) Completes s := by
  have now_eq := requested_now s
  have rule := txRule_of_low_stop h.running h.due h.txPc h.txSub
    (List.getElem?_eq_none (by rw [h.txProg]))
  generalize delay : chooseUpTo cfg.txDoneMax s.requested.env.draw.1 = d
  have released : InPhase cfg prog prog.length .doneWait (s.now + d) (releaseStop s.requested) :=
    { h with devLow := rfl, txSub := rfl, tUntil := by simp [h.cfg, delay] }
  refine ⟨d, delay ▸ chooseUpTo_le _ _, ?_⟩
  cases d with
  | zero =>
    have completes := txRule_of_doneWait released.running (now_eq.trans released.tUntil.symm) released.txPc
      released.txSub
    exact ⟨s, .done s, releaseStop s.requested, rfl, serialize_of_rules rule completes⟩
  | succ d =>
    have quiet : txRule (releaseStop s.requested) = none :=
      txRule_none_of_lt (by rw [released.tUntil, releaseStop_now, now_eq]; lia)
    obtain ⟨u, sends, ends⟩ := InPhase.begins (sub := .doneWait)
      ((serialize_of_rule rule quiet).symm ▸ released) (Nat.succ_pos d)
    have completes := txRule_of_doneWait ends.running ends.due ends.txPc ends.txSub
    exact ⟨u, sends, u.requested, ends.devLow, serialize_of_rule completes (txRule_none_of_ne (by simp))⟩

/-- The tick of the completion reaches the stop marker and leaves `TX`. -/
theorem Completes.ticks (h : Completes s) (tick : Ticks s t) :
    t.devLow = false ∧ t.txPc = .stop ∧ t.fsm ≠ .tx := by
  obtain ⟨r, released, completed⟩ := h
  have same : SameSerializer (txComplete r) t := completed ▸ tick.sameSerializer
  have left : (txComplete r).fsm ≠ .tx := by simp
  exact ⟨same.devLow.trans ((txComplete_devLow r).trans released), same.txPc.trans (txComplete_txPc r),
    fun tx => left (same.running.mp tx)⟩

/-! ## The whole transmission -/

/-- A request accepted in the coming tick starts the serializer, with the start delay drawn for it (R105). -/
theorem inPhase_of_request {f : ProtocolFrame} (drive : DriveInv s) (accepted : transmitAccepted f s = true)
    (presented : s.env.input.dispatcher = [.transmit f]) :
    ∃ d, d ≤ s.cfg.txStartMax ∧ InPhase s.cfg (wireBits f) 0 .startWait (s.now + d) s.requested := by
  obtain ⟨handoff, -, -⟩ := (transmitAccepted_iff f s).mp accepted
  have released : s.devLow = false := drive.released (by simp [handoff])
  rcases transmit_cases f s with ⟨-, started⟩ | ⟨not_accepted, -⟩
  · have requests : s.requested = applyRequests { s.env.input with dispatcher := [] } (transmit f s) := by
      rw [State.requested, applyRequests, presented]
      rfl
    have phase : InPhase s.cfg (wireBits f) 0 .startWait (s.now + chooseUpTo s.cfg.txStartMax s.env.draw.1)
        (transmit f s) := by
      rw [started]
      exact ⟨rfl, rfl, released, rfl, rfl, rfl, rfl⟩
    rw [requests]
    exact ⟨_, chooseUpTo_le _ _,
      phase.of_same (applyRequests_sameTransmitter _ phase.running).toSameSerializer⟩
  · cases accepted.symm.trans not_accepted

/-- From the start delay to the completion the drive is the closed form (R115). -/
theorem InPhase.reaches_completion {d : Tick} (accepted : parametersInRange cfg = true)
    (h : InPhase cfg prog 0 .startWait (s.now + d) s.requested) :
    ∃ e, e ≤ cfg.txDoneMax ∧ Reaches (deviceWave cfg d e prog) Completes s := by
  have symbols := (h.reaches_end rfl).append fun _ starts =>
    (starts.symbol_of_startWait accepted).reaches_stop accepted (before := []) rfl
  have stop_pulse : Reaches _ (PhaseEnds cfg prog prog.length .low) s :=
    symbols.append fun _ stop => stop.reaches accepted
  rw [symbolAt_eq_stop.mpr (List.getElem?_eq_none (le_refl prog.length))] at stop_pulse
  obtain ⟨u, sends, ends⟩ := stop_pulse
  obtain ⟨e, in_range, v, waits, completes⟩ := ends.reaches_completion
  exact ⟨e, in_range, v, sends.append waits, completes⟩

/-- The delays add to the length of the closed form. -/
theorem deviceWave_length (cfg : Config) (d e : Tick) (bits : List Bit) :
    (deviceWave cfg d e bits).length = d + (deviceWave cfg 0 0 bits).length + e := by
  simp only [deviceWave, List.length_append, List.length_replicate]
  lia

end Sys2Proof.Machine

namespace Sys2Proof.Proofs

open Sys2Proof.Machine

/-- Settles O36: the request starts the serializer's first phase, the phases follow the closed form to the
completion, and the listed inputs make that a run. -/
theorem transmissionFollowsTheClosedForm : Obligations.TransmissionFollowsTheClosedForm := by
  intro s f g x rest n accepted inv handoff ok valid inputs presented n_eq listed
  have inRange := ((configProblem_none_iff s.cfg).mp accepted).1
  obtain ⟨ds, ds_le, starts⟩ := inPhase_of_request inv.drive
    ((transmitAccepted_iff f s).mpr ⟨handoff, ⟨g, ok⟩, valid⟩) (by rw [input_of_cons inputs, presented])
  obtain ⟨de, de_le, u, sends, completes⟩ := starts.reaches_completion inRange
  have in_list : (deviceWave s.cfg ds de (wireBits f)).length ≤ n := by
    rw [deviceWave_length, n_eq]
    lia
  have listed_to_end := listed.mono (Nat.succ_le_succ in_list)
  refine ⟨ds, de, ds_le, de_le, fun k inside => ?_, ?_⟩
  · obtain ⟨t, runs, drive, tx, off_stop⟩ := sends.run_get accepted (listed_to_end.mono (Nat.le_succ _)) k inside
    exact ⟨t, runs, drive, off_stop, tx⟩
  · obtain ⟨runs, last, cfg_eq⟩ := sends.run_add 1 accepted listed_to_end
    obtain ⟨t, tick⟩ := exists_ticks u
    exact ⟨t, runs.trans (run_succ (tick.step (cfg_eq ▸ accepted) last.input)), completes.ticks tick⟩

end Sys2Proof.Proofs
end

section
/-! The requests for release, mask and unmask one by one (R124, R126, R127), and what a held mask does when
it looks again outside `IDLE`. -/

namespace Sys2Proof.Machine

variable {s : State}

/-- With the trigger enabled and an edge pending, re-arming re-bases it (R121). -/
theorem rearm_of_pending (enabled : s.irqEnable = true) (pending : s.edgePending = true) :
    rearm s = { s with tEdgePending := s.now } := by
  rcases rearm_cases s with ⟨-, -, rebased⟩ | ⟨not_armed, -⟩
  · exact rebased
  · simp [enabled, pending] at not_armed

/-- With the trigger disabled or no edge pending, re-arming does nothing (R121). -/
theorem rearm_of_none_pending (h : s.irqEnable = false ∨ s.edgePending = false) : rearm s = s := by
  rcases rearm_cases s with ⟨enabled, pending, -⟩ | ⟨-, unchanged⟩
  · simp [enabled, pending] at h
  · exact unchanged

theorem release_of_handoff (handoff : s.fsm = .handoff) :
    release s = rearm { s with rxResult := .none, fsm := .idle } :=
  (release_cases s).elim (·.2) fun h => absurd handoff h.1

/-- With no mask held, dropping the hold changes nothing. -/
theorem dropHold_of_notHeld (notHeld : s.maskHold = .none) : { s with maskHold := .none } = s := by
  rw [← notHeld]

theorem mask_of_notHeld (notHeld : s.maskHold = .none) : mask s = maskAttempt s := by
  simp [mask, notHeld]

/-- With no mask held, a mask in `IDLE` with no edge pending takes effect at once (R126). -/
theorem mask_of_idle (notHeld : s.maskHold = .none) (enabled : s.irqEnable = true) (idle : s.fsm = .idle)
    (nonePending : s.edgePending = false) : mask s = { s with irqEnable := false } := by
  calc mask s = disableEdge s := by simp [mask_of_notHeld notHeld, maskAttempt, enabled, idle, nonePending]
    _ = { s with irqEnable := false } := by rw [disableEdge, ← notHeld]

/-- Outside `IDLE` a held mask does not take effect (R126). -/
theorem maskResume_of_busy (busy : s.fsm ≠ .idle) : ∃ hold, maskResume s = { s with maskHold := hold } := by
  rcases maskResume_cases s with ⟨-, h⟩ | ⟨-, h⟩ | ⟨-, idle, -⟩ | ⟨-, -, h⟩
  · exact ⟨s.maskHold, h⟩
  · rcases maskAttempt_cases s with ⟨-, g⟩ | ⟨-, -, g⟩ | ⟨-, idle, -⟩ | ⟨-, idle, -⟩
    · exact ⟨_, h.trans g⟩
    · exact ⟨_, h.trans g⟩
    · exact absurd idle busy
    · exact absurd idle busy
  · exact absurd idle busy
  · exact ⟨s.maskHold, h⟩

/-- Outside `IDLE`, with the trigger enabled, a held mask stays held as it is (R126). -/
theorem maskResume_of_busy_enabled (busy : s.fsm ≠ .idle) (enabled : s.irqEnable = true) :
    maskResume s = s := by
  cases held : s.maskHold with
  | none => simp [maskResume, held]
  | untilIdle =>
    calc maskResume s = { s with maskHold := .untilIdle } := by
          simp [maskResume, held, maskAttempt, enabled, busy]
      _ = s := by rw [← held]
  | untilClear => simp [maskResume, held, busy]

end Sys2Proof.Machine

namespace Sys2Proof.Proofs

open Sys2Proof.Machine

/-- Settles O27: a release in the hand-off is the return to `IDLE` with its re-arming, any other is refused. -/
theorem releaseReturnsToIdle : Obligations.ReleaseReturnsToIdle := by
  refine fun s => ⟨fun handoff enabled pending => ?_, fun handoff none_pending => ?_, fun elsewhere => ?_⟩
  · exact (release_of_handoff handoff).trans (rearm_of_pending enabled pending)
  · exact (release_of_handoff handoff).trans (rearm_of_none_pending none_pending)
  · exact (release_cases s).elim (fun h => absurd h.1 elsewhere) (·.2)

/-- Settles O42: with no mask held, a mask request is one attempt, and with an edge pending the draw decides. -/
theorem maskTakesEffectOrHolds : Obligations.MaskTakesEffectOrHolds := by
  refine fun s notHeld => ⟨fun disabled => ?_, fun enabled busy => ?_, mask_of_idle notHeld,
    fun enabled idle pending => ?_⟩
  all_goals rw [mask_of_notHeld notHeld]
  · calc maskAttempt s = { s with maskHold := .none } := by simp [maskAttempt, disabled]
      _ = s := dropHold_of_notHeld notHeld
  · simp [maskAttempt, enabled, busy]
  · have draws : maskAttempt s = maskDraw s := by simp [maskAttempt, enabled, idle, pending]
    rw [draws]
    simpa only [notHeld] using maskDraw_cases s

/-- Settles O43: the two cases of an unmask while disabled differ in a pending edge, which is re-based. -/
theorem unmaskEnables : Obligations.UnmaskEnables := by
  intro s
  rcases unmask_cases s with ⟨enabled, h⟩ | ⟨disabled, pending, h⟩ | ⟨disabled, nonePending, h⟩
  · simp [enabled, h]
  · simp [disabled, pending, h]
  · simp [disabled, nonePending, h]

end Sys2Proof.Proofs
end

section
/-! The edge detector at a falling edge (R120, R121), and the tick of an edge that finds the trigger armed
(R85, R132). -/

namespace Sys2Proof.Machine

variable {s : State}

theorem fall_iff : s.fall = true ↔ s.prevLevel = true ∧ s.line = false := by
  simp [State.fall]

/-- An edge while one is pending, or a stale edge under `Discard`, changes `prev_level` only (R120, R121). -/
theorem detectEdge_of_ignored
    (ignored : s.edgePending = true ∨ (s.armed = false ∧ s.cfg.staleEdge = .discard)) :
    detectEdge s = { s with prevLevel := s.line } := by
  have unchanged : fallingEdge s = s := by
    rcases fallingEdge_cases s with ⟨nonePending, latches, -⟩ | ⟨-, h⟩
    · rcases ignored with pending | ⟨not_armed, discard⟩
      · cases nonePending.symm.trans pending
      · simp [not_armed, discard] at latches
    · exact h
  rw [detectEdge, unchanged, ite_self]

/-- An edge with none pending is latched while armed, and as a stale edge under `Latch` (R120, R121). -/
theorem detectEdge_of_latched (fall : s.fall = true) (nonePending : s.edgePending = false)
    (latches : s.armed = true ∨ s.cfg.staleEdge = .latch) :
    detectEdge s = { latchEdge s with prevLevel := false } := by
  have latched : fallingEdge s = latchEdge s := by
    rcases fallingEdge_cases s with ⟨-, -, h⟩ | ⟨pending | ⟨not_armed, discard⟩, -⟩
    · exact h
    · cases nonePending.symm.trans pending
    · simp [not_armed, discard] at latches
  rw [detectEdge, if_pos fall, latched, (fall_iff.mp fall).2]

/-- A stale edge with none pending is gone under `Discard` and latched at now under `Latch` (R121). -/
theorem detectEdge_of_stale (fall : s.fall = true) (nonePending : s.edgePending = false)
    (not_armed : s.armed = false) :
    (detectEdge s).prevLevel = false
      ∧ (s.cfg.staleEdge = .discard → (detectEdge s).edgePending = false)
      ∧ (s.cfg.staleEdge = .latch →
          (detectEdge s).edgePending = true ∧ (detectEdge s).tEdgePending = s.now) := by
  refine ⟨(fall_iff.mp fall).2, fun discard => ?_, fun latch => ?_⟩
  · rw [detectEdge_of_ignored (.inr ⟨not_armed, discard⟩)]
    exact nonePending
  · rw [detectEdge_of_latched fall nonePending (.inr latch)]
    exact ⟨rfl, rfl⟩

/-- At the start's instant step 4 leaves `IDLE`, with `t_base` now, and the edge, its instant and `prev_level`
as the start has them (R85). -/
theorem StartsAt.receive_now (h : StartsAt s.now s) : ∃ t, receive s = .next t ∧ t.fsm ≠ .idle
    ∧ t.edgePending = false ∧ t.tBase = s.now ∧ t.prevLevel = s.prevLevel
    ∧ t.tEdgePending = s.tEdgePending ∧ t.entryDelay = s.entryDelay := by
  rcases Nat.eq_zero_or_pos s.cfg.sampleDelay with at_once | delay
  · exact ⟨_, h.receive_at_sampled rfl at_once, by simp, rfl, rfl, rfl, rfl, rfl⟩
  · exact ⟨_, h.receive_at rfl delay, by simp, rfl, rfl, rfl, rfl, rfl⟩

end Sys2Proof.Machine

namespace Sys2Proof.Proofs

open Sys2Proof.Machine

/-- Settles O41: an edge that is not latched leaves `prev_level` only. -/
theorem staleEdgesAreDiscardedOrLatched : Obligations.StaleEdgesAreDiscardedOrLatched := by
  intro s fall
  have low := (fall_iff.mp fall).2
  refine ⟨fun not_armed discard => ?_, fun _ latch nonePending => ⟨_, chooseUpTo_le _ s.env.draw.1, ?_⟩,
    fun pending => ?_⟩
  · rw [detectEdge_of_ignored (.inr ⟨not_armed, discard⟩), low]
  · rw [detectEdge_of_latched fall nonePending (.inr latch)]
    rfl
  · rw [detectEdge_of_ignored (.inl pending), low]

/-- Settles O40: the edge of an armed trigger is latched with its latency, and from there the tick is that of
a pending edge (O16): the start at its instant, and nothing before it. -/
theorem armedEdgeStartsAReceive : Obligations.ArmedEdgeStartsAReceive := by
  intro s accepted no_reset noFlush notHeld idle enabled nonePending high low
  obtain ⟨refused, settled⟩ := settle_of_idle idle notHeld noFlush
  have fall : { s with refused := refused }.fall = true := fall_iff.mpr ⟨high, low⟩
  rw [detectEdge_of_latched fall nonePending (.inl (by simp [State.armed, idle, enabled]))] at settled
  have starts : StartsAt (s.now + chooseUpTo s.cfg.entryLatencyMax s.env.draw.1) (settle s) :=
    settled ▸ ⟨idle, enabled, rfl, notHeld, rfl⟩
  have in_range := chooseUpTo_le s.cfg.entryLatencyMax s.env.draw.1
  have delay : (settle s).entryDelay = chooseUpTo s.cfg.entryLatencyMax s.env.draw.1 := by rw [settled]; rfl
  have latched : (settle s).tEdgePending = s.now := by rw [settled]; rfl
  have level : (settle s).prevLevel = false := by rw [settled]
  have now_eq := (settle_sameTick s).now
  generalize chooseUpTo s.cfg.entryLatencyMax s.env.draw.1 = d at starts in_range delay
  rcases Nat.eq_zero_or_pos d with rfl | positive
  · rw [Nat.add_zero, ← now_eq] at starts
    obtain ⟨t, received, left, taken, base, level', latched', delay'⟩ := starts.receive_now
    exact ⟨0, _, in_range, step_of_receive accepted no_reset received, level'.trans level,
      latched'.trans latched, delay'.trans delay, fun h => absurd h (Nat.lt_irrefl 0),
      fun _ => ⟨taken, left, base.trans now_eq⟩⟩
  · have received := starts.receive_before (now_eq ▸ Nat.ne_of_lt (Nat.lt_add_of_pos_right positive))
    exact ⟨d, _, in_range, step_of_receive accepted no_reset received, level, latched, delay,
      fun _ => ⟨starts.pending, starts.idle⟩, fun zero => absurd zero positive.ne'⟩

end Sys2Proof.Proofs
end

section
/-! Ticks by what step 0 leaves (R126, R129, R132): outside `TX` the serializer adds nothing, and a machine
that is idle and masked then starts nothing. -/

namespace Sys2Proof.Machine

variable {s t u : State}

/-! ## Step 0 -/

/-- The state after the dispatcher's requests of the coming tick. -/
def State.dispatched (s : State) : State := s.env.input.dispatcher.foldl dispatcherRequest s

/-- Without a new request of the flush sequence, what is left of step 0 is the held mask (R126). -/
theorem requested_of_noFlush (noFlush : s.env.input.flush = []) : s.requested = maskResume s.dispatched := by
  rw [State.requested, applyRequests, noFlush]
  rfl

theorem settle_of_requested (not_tx : s.requested.fsm ≠ .tx) : settle s = detectEdge s.requested := by
  rw [← serialize_of_ne_tx not_tx]
  rfl

/-- Outside the hand-off step 0 is the flush sequence's, but for the refusal mark (R107, R124). -/
theorem requested_of_ne_handoff (elsewhere : s.fsm ≠ .handoff) :
    ∃ refused, flushWrites { s with refused := refused } s.requested := by
  obtain ⟨refused, dispatched⟩ := dispatcherRequests_frame elsewhere s.env.input.dispatcher
  refine ⟨refused, ?_⟩
  rw [State.requested, applyRequests, dispatched]
  exact flushWrites_trans (maskResume_writes _) (flushRequests_writes s.env.input.flush _)

/-! ## What keeps the trigger -/

/-- The trigger's enable and the held mask are the same (R31, R126). -/
structure SameMask (s t : State) : Prop where
  irqEnable : t.irqEnable = s.irqEnable
  maskHold : t.maskHold = s.maskHold

namespace SameMask

@[refl] theorem refl (s : State) : SameMask s s := ⟨rfl, rfl⟩

@[trans] theorem trans (h : SameMask s t) (g : SameMask t u) : SameMask s u :=
  ⟨g.irqEnable.trans h.irqEnable, g.maskHold.trans h.maskHold⟩

end SameMask

/-- The dispatcher's requests leave the trigger and its pending edge alone. -/
theorem dispatcherRequest_trigger (s : State) (r : DispatcherRequest) :
    SameMask s (dispatcherRequest s r) ∧ (dispatcherRequest s r).edgePending = s.edgePending := by
  cases r with
  | transmit f =>
    show SameMask s (transmit f s) ∧ (transmit f s).edgePending = s.edgePending
    rcases transmit_cases f s with ⟨-, h⟩ | ⟨-, h⟩ <;> rw [h]
    all_goals exact ⟨⟨rfl, rfl⟩, rfl⟩
  | release =>
    show SameMask s (release s) ∧ (release s).edgePending = s.edgePending
    rcases release_cases s with ⟨-, h⟩ | ⟨-, h⟩ <;> rw [h]
    · rw [rearm_frame]
      exact ⟨⟨rfl, rfl⟩, rfl⟩
    · exact ⟨⟨rfl, rfl⟩, rfl⟩

theorem dispatched_trigger (s : State) :
    SameMask s s.dispatched ∧ s.dispatched.edgePending = s.edgePending :=
  List.foldlRecOn (motive := fun t => SameMask s t ∧ t.edgePending = s.edgePending)
    s.env.input.dispatcher dispatcherRequest ⟨.refl s, rfl⟩ fun t ⟨same, pending⟩ r _ =>
      have ⟨same', pending'⟩ := dispatcherRequest_trigger t r
      ⟨same.trans same', pending'.trans pending⟩

theorem SerializerRule.sameMask {k : Nat} (rule : SerializerRule k s t) : SameMask s t := by
  cases rule <;> exact ⟨rfl, rfl⟩

theorem txRule_sameMask (h : txRule s = some t) : SameMask s t := by
  rcases txRule_cases s with
    none_holds | ⟨-, -, k, -, ⟨sub, rule⟩ | ⟨-, rule⟩ | ⟨sub, rule⟩ | ⟨sub, rule⟩⟩
  · simp [none_holds] at h
  all_goals obtain rfl := Option.some.inj (rule.symm.trans h)
  · exact (SerializerRule.beginFirst sub).sameMask
  · exact (endLow_rule k s).sameMask
  · exact (SerializerRule.beginNext sub).sameMask
  · exact (txComplete_rule k sub).sameMask

theorem txRepeat_sameMask (fuel : Nat) (s : State) : SameMask s (txRepeat fuel s) := by
  induction fuel generalizing s with
  | zero => exact .refl s
  | succ fuel ih =>
    unfold txRepeat
    split
    · exact .refl s
    · next t rule => exact (txRule_sameMask rule).trans (ih t)

theorem detectEdge_sameMask (s : State) : SameMask s (detectEdge s) := by
  obtain ⟨_, _, _, _, _, detected⟩ := detectEdge_frame s
  rw [detected]
  exact ⟨rfl, rfl⟩

theorem ReceiveRule.sameMask (rule : ReceiveRule s t) : SameMask s t := by
  cases rule <;> exact ⟨rfl, rfl⟩

theorem rxRepeat_sameMask {fuel : Nat} (h : rxRepeat fuel s = .next t) : SameMask s t := by
  induction fuel generalizing s with
  | zero =>
    cases h
    exact .refl _
  | succ fuel ih =>
    unfold rxRepeat at h
    rcases rxRule_next s with none_due | ⟨u, due⟩
    · rw [none_due] at h
      cases h
      exact .refl _
    · rw [due] at h
      exact (rxRule_rule due).sameMask.trans (ih h)

/-- After step 0 a tick leaves the trigger's enable and the held mask alone (log 11). -/
theorem Ticks.sameMask (tick : Ticks s t) : SameMask s.requested t := by
  obtain ⟨u, received, rfl⟩ := tick
  exact (txRepeat_sameMask 2 s.requested).trans <|
    (detectEdge_sameMask _).trans ((rxRepeat_sameMask received).trans ⟨rfl, rfl⟩)

/-! ## A masked machine -/

section
variable (idle : s.requested.fsm = .idle) (masked : s.requested.irqEnable = false)
include idle masked

/-- Idle and masked after step 0, a machine starts nothing: only the edge detector is left (R85, R129). -/
theorem receive_of_masked : receive (settle s) = .next (detectEdge s.requested) := by
  have idle' := (detectEdge_sameReceive s.requested).fsm.trans idle
  have masked' := (detectEdge_sameMask s.requested).irqEnable.trans masked
  rw [settle_of_requested (by simp [idle])]
  exact receive_of_quiet (by simp [rxRule, idle', startDue, State.armed, masked'])

theorem Ticks.of_masked (tick : Ticks s t) : t = advanceTime (detectEdge s.requested) := by
  obtain ⟨u, received, rfl⟩ := tick
  cases (receive_of_masked idle masked).symm.trans received
  rfl

theorem Ticks.idle_of_masked (tick : Ticks s t) : t.fsm = .idle := by
  rw [tick.of_masked idle masked]
  exact (detectEdge_sameReceive s.requested).fsm.trans idle

/-- While masked, an edge that finds one pending, or is discarded, leaves the pending edge as step 0 does. -/
theorem Ticks.edgePending_of_masked (tick : Ticks s t)
    (ignored : s.requested.edgePending = true ∨ s.requested.cfg.staleEdge = .discard) :
    t.edgePending = s.requested.edgePending := by
  have not_armed : s.requested.armed = false := by simp [State.armed, masked]
  rw [tick.of_masked idle masked, detectEdge_of_ignored (ignored.imp_right (⟨not_armed, ·⟩))]
  rfl

end

theorem maskAttempt_of_masked (masked : s.irqEnable = false) : (maskAttempt s).irqEnable = false := by
  simp [maskAttempt, masked]

theorem maskResume_of_masked (masked : s.irqEnable = false) : (maskResume s).irqEnable = false := by
  rcases maskResume_cases s with ⟨-, h⟩ | ⟨-, h⟩ | ⟨-, -, -, h⟩ | ⟨-, -, h⟩ <;> rw [h]
  · exact masked
  · exact maskAttempt_of_masked masked
  · exact masked

/-- Only an unmask enables the trigger (R127). -/
theorem flushRequest_of_masked {r : FlushRequest} (masked : s.irqEnable = false) (no_unmask : r ≠ .unmask) :
    (flushRequest s r).irqEnable = false := by
  cases r with
  | mask =>
    show (mask s).irqEnable = false
    unfold mask
    split
    · exact maskAttempt_of_masked masked
    · exact masked
  | unmask => exact absurd rfl no_unmask

theorem requested_of_masked (masked : s.irqEnable = false) (no_unmask : .unmask ∉ s.env.input.flush) :
    s.requested.irqEnable = false := by
  have resumed : (maskResume s.dispatched).irqEnable = false :=
    maskResume_of_masked ((dispatched_trigger s).1.irqEnable.trans masked)
  exact List.foldlRecOn (motive := fun t => t.irqEnable = false) s.env.input.flush flushRequest resumed
    fun t h r inside => flushRequest_of_masked h fun is_unmask => no_unmask (is_unmask ▸ inside)

/-- `t` is idle and masked, with the drive, the result, the bit count and the serializer's program counter of
`s` (R129). -/
structure StaysMasked (s t : State) : Prop where
  idle : t.fsm = .idle
  masked : t.irqEnable = false
  devLow : t.devLow = s.devLow
  rxResult : t.rxResult = s.rxResult
  nbits : t.nbits = s.nbits
  txPc : t.txPc = s.txPc

theorem StaysMasked.trans (h : StaysMasked s t) (g : StaysMasked t u) : StaysMasked s u where
  idle := g.idle
  masked := g.masked
  devLow := g.devLow.trans h.devLow
  rxResult := g.rxResult.trans h.rxResult
  nbits := g.nbits.trans h.nbits
  txPc := g.txPc.trans h.txPc

/-- One tick of an idle, masked machine without an unmask (R129). -/
theorem tick_of_masked (accepted : configProblem s.cfg = none) (no_reset : s.env.input.reset = false)
    (idle : s.fsm = .idle) (masked : s.irqEnable = false) (no_unmask : .unmask ∉ s.env.input.flush) :
    ∃ t, step s = .next t ∧ StaysMasked s t := by
  have requested_masked := requested_of_masked masked no_unmask
  obtain ⟨refused, irq, _, _, _, _, -, -, requested⟩ := requested_of_ne_handoff (s := s) (by simp [idle])
  obtain ⟨_, _, _, _, _, detected⟩ := detectEdge_frame s.requested
  have requested_idle : s.requested.fsm = .idle := by
    rw [requested]
    exact idle
  have steps := step_of_receive accepted no_reset (receive_of_masked requested_idle requested_masked)
  rw [detected, requested] at steps
  rw [requested] at requested_masked
  exact ⟨_, steps, idle, requested_masked, rfl, rfl, rfl, rfl⟩

/-- A listed run of an idle, masked machine without an unmask (R129). -/
theorem run_of_masked (n : Nat) (accepted : configProblem s.cfg = none) (idle : s.fsm = .idle)
    (masked : s.irqEnable = false) (listed : listedNoReset n s)
    (no_unmask : ∀ x ∈ s.env.inputs.take n, FlushRequest.unmask ∉ x.flush) :
    ∃ t, run n s = .next t ∧ StaysMasked s t := by
  induction n generalizing s with
  | zero => exact ⟨s, rfl, idle, masked, rfl, rfl, rfl, rfl⟩
  | succ n ih =>
    cases inputs : s.env.inputs with
    | nil => simp [listedNoReset, inputs] at listed
    | cons x xs =>
      rw [inputs, List.take_succ_cons, List.forall_mem_cons] at no_unmask
      obtain ⟨no_unmask_now, no_unmask_later⟩ := no_unmask
      rw [← input_of_cons inputs] at no_unmask_now
      obtain ⟨t, steps, stays⟩ := tick_of_masked accepted listed.input idle masked no_unmask_now
      have next := nextTick_of_step listed.input steps
      have rest : t.env.inputs = xs := by rw [next.inputs, inputs, List.tail_cons]
      obtain ⟨u, runs, stays'⟩ := ih (next.cfg ▸ accepted) stays.idle stays.masked (listed.next next)
        (rest ▸ no_unmask_later)
      exact ⟨u, (run_succ steps).trans runs, stays.trans stays'⟩

/-! ## A held mask (R126) -/

/-- Idle with no edge pending, a held mask takes effect. -/
theorem maskResume_takes_effect (held : s.maskHold ≠ .none) (enabled : s.irqEnable = true)
    (idle : s.fsm = .idle) (nonePending : s.edgePending = false) : maskResume s = disableEdge s := by
  cases hold : s.maskHold with
  | none => exact absurd hold held
  | untilIdle => simp [maskResume, hold, maskAttempt, enabled, idle, nonePending]
  | untilClear => simp [maskResume, hold, idle, nonePending]

/-- A mask that waits for the pending receive keeps waiting while the edge is pending. -/
theorem maskResume_untilClear (hold : s.maskHold = .untilClear) (pending : s.edgePending = true) :
    maskResume s = s := by
  simp [maskResume, hold, pending]

/-- A mask that waited for `IDLE` only draws when it finds an edge pending there. -/
theorem maskResume_untilIdle (hold : s.maskHold = .untilIdle) (enabled : s.irqEnable = true)
    (idle : s.fsm = .idle) (pending : s.edgePending = true) : maskResume s = maskDraw s := by
  simp [maskResume, hold, maskAttempt, enabled, idle, pending]

/-- A tick whose held mask draws in step 0 (R126): the mask waits for the pending receive, or it takes effect
and `P_STALE_EDGE` says what becomes of the edge. -/
theorem Ticks.outcome_of_draw (tick : Ticks s t) (drawn : s.requested = maskDraw u)
    (enabled : u.irqEnable = true) (idle : u.fsm = .idle) (pending : u.edgePending = true) :
    (t.maskHold = .untilClear ∧ t.irqEnable = true)
      ∨ (t.maskHold = .none ∧ t.irqEnable = false ∧ t.fsm = .idle
        ∧ (u.cfg.staleEdge = .discard → t.edgePending = false)
        ∧ (u.cfg.staleEdge = .latch → t.edgePending = true)) := by
  have kept := tick.sameMask
  have idle' : s.requested.fsm = .idle :=
    drawn ▸ (SameReceive.of_flushWrites (maskDraw_writes u)).fsm.trans idle
  rcases maskDraw_cases u with waits | ⟨discard, drops⟩ | ⟨latch, keeps⟩
  · rw [drawn, waits] at kept
    exact .inl ⟨kept.maskHold, kept.irqEnable.trans enabled⟩
  · rw [drops] at drawn
    have masked : s.requested.irqEnable = false := by rw [drawn]
    have dropped : s.requested.edgePending = false := by rw [drawn]
    have edge := tick.edgePending_of_masked idle' masked (.inr (by rw [drawn]; exact discard))
    rw [drawn] at kept
    exact .inr ⟨kept.maskHold, kept.irqEnable, tick.idle_of_masked idle' masked,
      fun _ => edge.trans dropped, fun latch => by cases discard.symm.trans latch⟩
  · rw [keeps] at drawn
    have masked : s.requested.irqEnable = false := by rw [drawn]
    have still_pending : s.requested.edgePending = true := by rw [drawn]; exact pending
    have edge := tick.edgePending_of_masked idle' masked (.inl still_pending)
    rw [drawn] at kept
    exact .inr ⟨kept.maskHold, kept.irqEnable, tick.idle_of_masked idle' masked,
      fun discard => (by cases discard.symm.trans latch), fun _ => edge.trans still_pending⟩

end Sys2Proof.Machine

namespace Sys2Proof.Proofs

open Sys2Proof.Machine

/-- Settles O45: a tick without an unmask keeps an idle machine masked, and so does a run of them. -/
theorem nothingStartsWhileMasked : Obligations.NothingStartsWhileMasked := by
  intro n s accepted idle masked released listed no_unmask
  obtain ⟨t, runs, stays⟩ := run_of_masked n accepted idle masked listed no_unmask
  exact ⟨t, runs, stays.idle, stays.masked, stays.devLow.trans released, stays.rxResult, stays.nbits,
    stays.txPc⟩

/-- Settles O46: the mask takes effect in step 0, so the edge detector finds the trigger not armed. -/
theorem maskAndEdgeInOneTickLeaveTheEdgeStale : Obligations.MaskAndEdgeInOneTickLeaveTheEdgeStale := by
  intro s accepted no_reset flush notHeld idle enabled nonePending high low
  obtain ⟨refused, dispatched⟩ :=
    dispatcherRequests_frame (s := s) (by simp [idle]) s.env.input.dispatcher
  have requested : s.requested = { s with refused := refused, irqEnable := false } := by
    rw [State.requested, applyRequests, flush, dispatched,
      show maskResume { s with refused := refused } = { s with refused := refused } by
        simp [maskResume, notHeld]]
    exact mask_of_idle (s := { s with refused := refused }) notHeld enabled idle nonePending
  have steps := step_of_receive accepted no_reset
    (receive_of_masked (by rw [requested]; exact idle) (by rw [requested]))
  rw [requested] at steps
  obtain ⟨level, discards, latches⟩ :=
    detectEdge_of_stale (s := { s with refused := refused, irqEnable := false })
      (fall_iff.mpr ⟨high, low⟩) nonePending (by simp [State.armed])
  exact ⟨_, steps, (detectEdge_sameMask _).irqEnable, (detectEdge_sameReceive _).fsm.trans idle, level,
    discards, latches⟩

/-- Settles O56: step 0 decides what becomes of the mask, and the rest of the tick leaves that alone. -/
theorem heldMaskWaitsThenTakesEffect : Obligations.HeldMaskWaitsThenTakesEffect := by
  intro s accepted no_reset noFlush held enabled
  obtain ⟨t, tick⟩ := exists_ticks s
  have kept := tick.sameMask
  have requested := requested_of_noFlush noFlush
  obtain ⟨⟨enabled_eq, hold_eq⟩, pending_eq⟩ := dispatched_trigger s
  have cfg_eq : s.dispatched.cfg = s.cfg := (SameTick.foldl dispatcherRequest_sameTick _ s).cfg
  rw [enabled] at enabled_eq
  refine ⟨t, tick.step accepted no_reset, fun (busy : s.dispatched.fsm ≠ .idle) => ?_,
    fun (idle : s.dispatched.fsm = .idle) =>
      ⟨fun nonePending => ?_, fun pending hold => ?_, fun pending hold => ?_⟩⟩
  · rw [requested, maskResume_of_busy_enabled busy enabled_eq] at kept
    exact ⟨kept.maskHold.trans hold_eq, kept.irqEnable.trans enabled_eq⟩
  · rw [maskResume_takes_effect (hold_eq ▸ held) enabled_eq idle (pending_eq.trans nonePending)] at requested
    rw [requested] at kept
    exact ⟨kept.maskHold, kept.irqEnable,
      tick.idle_of_masked (by rw [requested]; exact idle) (by rw [requested]; rfl)⟩
  · rw [requested, maskResume_untilClear (hold_eq.trans hold) (pending_eq.trans pending)] at kept
    exact ⟨kept.maskHold.trans (hold_eq.trans hold), kept.irqEnable.trans enabled_eq⟩
  · have pending := pending_eq.trans pending
    have drawn := requested.trans (maskResume_untilIdle (hold_eq.trans hold) enabled_eq idle pending)
    exact cfg_eq ▸ tick.outcome_of_draw drawn enabled_eq idle pending

end Sys2Proof.Proofs
end

section
/-! The hand-off between ticks (R123) and the tick in which an accepted transmit request ends it (R105, R132):
with no start delay its first pulse is on the line before the edge detector looks. -/

namespace Sys2Proof.Machine

variable {s : State} {f : ProtocolFrame}

theorem line_of_devLow (drives : s.devLow = true) : s.line = false := by
  simp [State.line, drives]

/-- With no start delay, an accepted request's first symbol begins in the request's tick (R105, R108). -/
theorem serialize_transmit (inRange : parametersInRange s.cfg = true) (accepted : transmitAccepted f s = true)
    (no_delay : s.cfg.txStartMax = 0) (hold : MaskHold) :
    serialize { transmit f s with maskHold := hold }
      = beginSymbol 0 { transmit f s with maskHold := hold } := by
  rcases transmit_cases f s with ⟨-, started⟩ | ⟨refused, -⟩
  · have delay : chooseUpTo s.cfg.txStartMax s.env.draw.1 = 0 :=
      Nat.le_zero.mp (no_delay ▸ chooseUpTo_le s.cfg.txStartMax s.env.draw.1)
    rw [started, delay]
    exact serialize_of_rule (txRule_of_startWait rfl rfl rfl rfl)
      (txRule_none_of_lt (Nat.lt_add_of_pos_right (symbolLow_pos inRange _)))
  · cases accepted.symm.trans refused

/-- With no start delay, steps 0 and 1 put the first pulse on the line, and leave the trigger and its pending
edge to the edge detector (R132). -/
theorem settle_of_transmit (inRange : parametersInRange s.cfg = true) (accepted : transmitAccepted f s = true)
    (no_delay : s.cfg.txStartMax = 0) (presented : s.env.input.dispatcher = [.transmit f])
    (noFlush : s.env.input.flush = []) :
    ∃ p, settle s = detectEdge p ∧ p.fsm = .tx ∧ p.devLow = true ∧ p.prevLevel = s.prevLevel
      ∧ p.edgePending = s.edgePending ∧ p.now = s.now ∧ p.cfg = s.cfg := by
  have dispatched : s.dispatched = transmit f s := by
    rw [State.dispatched, presented]
    rfl
  rcases transmit_cases f s with ⟨-, started⟩ | ⟨refused, -⟩
  · obtain ⟨hold, resumed⟩ := maskResume_of_busy (s := transmit f s) (by simp [started])
    have pulse := serialize_transmit inRange accepted no_delay hold
    rw [← resumed, ← dispatched, ← requested_of_noFlush noFlush] at pulse
    refine ⟨_, congrArg detectEdge pulse, ?_⟩
    rw [requested_of_noFlush noFlush, dispatched, resumed, started]
    exact ⟨rfl, rfl, rfl, rfl, rfl, rfl⟩
  · cases accepted.symm.trans refused

end Sys2Proof.Machine

namespace Sys2Proof.Proofs

open Sys2Proof.Machine

/-- Settles O52: a receive rule that follows another in its tick leaves none due (log 19). -/
theorem receiveRulesAreExhausted : Obligations.ReceiveRulesAreExhausted :=
  fun _ _ accepted received => receive_rxRule (pollTicks_pos accepted) received

/-- Settles O26: without a request of the dispatcher, steps 0 to 3 leave the hand-off alone, and no receive
rule is due in it. -/
theorem handoffWaitsForTheDispatcher : Obligations.HandoffWaitsForTheDispatcher := by
  intro s accepted no_reset waits handoff
  have requests : SameReceive s s.requested := applyRequests_sameReceive_of_waits fun _ => waits
  have same : SameReceive s (settle s) := by
    rw [settle_of_requested (by simp [requests.fsm, handoff])]
    exact requests.trans (detectEdge_sameReceive _)
  have handoff' := same.fsm.trans handoff
  exact ⟨_, step_of_receive accepted no_reset (receive_of_quiet (rxRule_none_of_handoff handoff')), handoff',
    same.rxResult, same.devLow⟩

/-- Settles O47: the pulse is on the line in step 1, and in `TX` its edge is stale. -/
theorem firstPulseIsSeenByTheEdgeDetector : Obligations.FirstPulseIsSeenByTheEdgeDetector := by
  intro s f g accepted no_reset presented noFlush handoff ok valid no_delay high nonePending
  have request := (transmitAccepted_iff f s).mpr ⟨handoff, ⟨g, ok⟩, valid⟩
  obtain ⟨p, settled, tx, drives, level, edge, now_eq, cfg_eq⟩ := settle_of_transmit
    ((configProblem_none_iff s.cfg).mp accepted).1 request no_delay presented noFlush
  obtain ⟨seen, discards, latches⟩ := detectEdge_of_stale
    (fall_iff.mpr ⟨level.trans high, line_of_devLow drives⟩) (edge.trans nonePending)
    (not_armed (by simp [tx]))
  have same := detectEdge_sameReceive p
  rw [cfg_eq, now_eq] at latches
  rw [cfg_eq] at discards
  rw [← settled] at seen discards latches same
  have tx' := same.fsm.trans tx
  exact ⟨_, step_of_receive accepted no_reset (receive_of_quiet (by simp [rxRule, tx'])),
    same.devLow.trans drives, seen, tx', latches, discards⟩

end Sys2Proof.Proofs
end

section
/-! The tick source (R144): what a counter of `P_TICK_WIDTH` bits measures, and which configurations are
refused because an interval does not fit it. -/

namespace Sys2Proof.Machine

/-- Two readings of the counter give the true distance up to whole turns of it. -/
theorem counterElapsed_counterRead (cfg : Config) {t0 t1 : Nat} (order : t0 ≤ t1) :
    counterElapsed cfg (counterRead cfg t0) (counterRead cfg t1) = (t1 - t0) % 2 ^ cfg.tickWidth := by
  unfold counterElapsed counterRead
  generalize turn_eq : 2 ^ cfg.tickWidth = turn
  have below_turn : t0 % turn < turn := Nat.mod_lt _ (turn_eq ▸ Nat.two_pow_pos _)
  have split_start : turn * (t0 / turn) + t0 % turn = t0 := Nat.div_add_mod t0 turn
  have whole_turns : t1 + (turn - t0 % turn) = (t1 - t0) + turn * (t0 / turn + 1) := by
    rw [Nat.mul_add_one]
    omega
  calc (t1 % turn + (turn - t0 % turn)) % turn
      = (t1 + (turn - t0 % turn)) % turn := Nat.mod_add_mod _ _ _
    _ = (t1 - t0) % turn := by rw [whole_turns, Nat.add_mul_mod_self_left]

theorem counterWideEnough_eq_false_iff (cfg : Config) :
    counterWideEnough cfg = false ↔ ∃ d ∈ measuredIntervals cfg, 2 ^ cfg.tickWidth ≤ d := by
  simp only [counterWideEnough, List.all_eq_false, decide_eq_true_eq, not_lt]

/-- The range of the parameters is looked at first (log 13). -/
theorem configProblem_eq_counterTooNarrow_iff (cfg : Config) :
    configProblem cfg = some .counterTooNarrow ↔
      parametersInRange cfg = true ∧ counterWideEnough cfg = false := by
  unfold configProblem
  cases parametersInRange cfg <;> cases counterWideEnough cfg <;> simp

/-- The configuration is all a step is refused for. -/
theorem step_eq_refused_iff (s : State) (r : Refusal) :
    step s = .refused r ↔ configProblem s.cfg = some r := by
  rcases step_cases s with ⟨r', problem, steps⟩ | ⟨accepted, -, steps⟩ | ⟨accepted, -, t, -, steps⟩
  · rw [steps, problem, Host.Outcome.refused.injEq, Option.some.injEq]
  · simp [steps, accepted]
  · simp [steps, accepted]

end Sys2Proof.Machine

namespace Sys2Proof.Proofs

open Sys2Proof.Machine

/-- Settles O54: only the configuration makes a step refuse, and the disjunction lists the measured
intervals. -/
theorem narrowCountersAreRefused : Obligations.NarrowCountersAreRefused := by
  intro s
  rw [step_eq_refused_iff, configProblem_eq_counterTooNarrow_iff, counterWideEnough_eq_false_iff]
  simp only [measuredIntervals, List.exists_mem_cons_iff, List.not_mem_nil, false_and, exists_false, or_false]

/-- Settles O55: a distance below one turn of the counter is its own remainder. -/
theorem elapsedTimeIsExact : Obligations.ElapsedTimeIsExact := fun cfg _ _ order short =>
  (counterElapsed_counterRead cfg order).trans (Nat.mod_eq_of_lt short)

end Sys2Proof.Proofs
end

section
/-! The timeout (R134 to R137): only the budget's last read of a phase posts one, it is the only receive
rule of its tick, and it leaves the receive registers alone. -/

namespace Sys2Proof.Machine

variable {s t : State} {info : TimeoutInfo}

/-- Between `s` and `t` the phase of `info` ran out, with the bits of `info` sampled. -/
structure TimesOut (info : TimeoutInfo) (s t : State) : Prop extends SameRegisters s t where
  phase : s.fsm = phaseFsm info.phase
  bits : info.bits = s.nbits
  handoff : t.fsm = .handoff

theorem SameReceive.timesOut {r : State} (same : SameReceive r s) (h : TimesOut info s t) :
    TimesOut info r t where
  cfg := h.cfg.trans same.cfg
  nbits := h.nbits.trans same.nbits
  need := h.need.trans same.need
  hdr := h.hdr.trans same.hdr
  rxOp := h.rxOp.trans same.rxOp
  data := h.data.trans same.data
  phase := same.fsm.symm.trans h.phase
  bits := h.bits.trans same.nbits
  handoff := h.handoff

section
variable (new : s.rxResult ≠ .err info)
include new

theorem countRead_timesOut {phase : WaitPhase} (waiting : s.fsm = phaseFsm phase)
    (posted : (countRead phase s).rxResult = .err info) : TimesOut info s (countRead phase s) := by
  rcases countRead_cases phase s with ⟨-, h⟩ | ⟨-, h⟩ <;> rw [h] at posted ⊢
  · cases posted
    exact ⟨⟨rfl, rfl, rfl, rfl, rfl, rfl⟩, waiting, rfl, rfl⟩
  · exact absurd posted new

theorem rxSample_posts_no_timeout (sampled : rxSample s = .next t) : t.rxResult ≠ .err info := by
  obtain ⟨_, _, _, _, -, taken⟩ := rxTake_frame s.line s
  rcases rxSample_cases s with ⟨-, h⟩ | ⟨-, h⟩ <;> cases h.symm.trans sampled
  · nofun
  · rw [taken]
    exact new

/-- A receive rule that posts a timeout is a read that ran out of budget. -/
theorem rxRule_timesOut (due : rxRule s = some (.next t)) (posted : t.rxResult = .err info) :
    TimesOut info s t := by
  rcases rxRule_some_cases due with
    ⟨-, -, rule⟩ | ⟨-, -, rule⟩ | ⟨waiting, -, rule⟩ | ⟨waiting, -, rule⟩
  · cases rule
    nomatch posted
  · exact absurd posted (rxSample_posts_no_timeout new rule.symm)
  · cases rule
    unfold rxReadHigh at posted ⊢
    split at posted
    · exact absurd posted new
    · next low => exact if_neg low ▸ countRead_timesOut new (phase := .waitHigh) waiting posted
  · cases rule
    unfold rxReadLow at posted ⊢
    split at posted
    · next high => exact if_pos high ▸ countRead_timesOut new (phase := .waitLow) waiting posted
    · exact absurd posted new

/-- A step 4 that posts a timeout is that read alone: a second rule of a tick is a sample (log 19). -/
theorem receive_timesOut (poll : 1 ≤ s.cfg.pollTicks) (received : receive s = .next t)
    (posted : t.rxResult = .err info) : TimesOut info s t := by
  rcases rxRule_next s with none_due | ⟨u, due⟩
  · cases (receive_of_quiet none_due).symm.trans received
    exact absurd posted new
  rcases (rxRule_rule due).quiet poll with quiet | ⟨-, sampling⟩
  · cases (receive_of_rule due quiet).symm.trans received
    exact rxRule_timesOut new due posted
  · have new' : u.rxResult ≠ .err info := fun posted' =>
      absurd (sampling.symm.trans (rxRule_timesOut new due posted').handoff) nofun
    rcases rxRule_next u with none_due | ⟨v, due'⟩
    · cases (receive_of_rule due none_due).symm.trans received
      exact absurd posted new'
    · simp only [receive, rxRepeat, due, due'] at received
      cases received
      rcases waiting_of_phaseFsm (rxRule_timesOut new' due' posted).phase with e | e <;>
        cases sampling.symm.trans e

/-- Steps 0 to 3 leave the receive alone that a timeout ends. -/
theorem step_timesOut (inv : Inv s) (steps : step s = .next t) (posted : t.rxResult = .err info) :
    TimesOut info s t := by
  have kept_or_receiving := (Proofs.resultsArePostedWhole s t inv steps (posted ▸ nofun)).2.1
  obtain ⟨-, receiving⟩ := kept_or_receiving.resolve_left fun kept => new (kept ▸ posted)
  have same := settle_sameReceive receiving
  rcases step_cases s with ⟨r, -, refused⟩ | ⟨-, -, resets⟩ | ⟨accepted, -, u, received, ends⟩
  · cases refused.symm.trans steps
  · cases resets.symm.trans steps
    nomatch posted
  · cases ends.symm.trans steps
    have timesOut := same.timesOut (receive_timesOut (same.rxResult ▸ new)
      (same.cfg ▸ pollTicks_pos accepted) received posted)
    exact { timesOut with }

end

/-- The bits of a frame in progress are fewer than the frame takes (R36). -/
theorem inFrame.nbits_lt (frame : inFrame s) {n : Nat} (decided : s.need = some n) : s.nbits < n := by
  rcases frame with ⟨undecided, -⟩ | ⟨m, decided', -, fewer⟩
  · cases undecided.symm.trans decided
  · cases decided'.symm.trans decided
    exact fewer

end Sys2Proof.Machine

namespace Sys2Proof.Proofs

open Sys2Proof.Machine

/-- Settles O23: the definition of `raiseTimeout` is R135's. -/
theorem timeoutPostsTheErrorOnly : Obligations.TimeoutPostsTheErrorOnly := fun _ _ => rfl

/-- Settles O24: the timeout is raised in the phase it names and changes no receive register, and of a frame
in a phase the invariant knows how many bits there are. -/
theorem timeoutTellsTheBitsSampled : Obligations.TimeoutTellsTheBitsSampled := by
  intro s t info inv steps posted new
  have timesOut := step_timesOut new inv steps posted
  obtain ⟨frame, sampled, -⟩ := inv.rx.waiting (waiting_of_phaseFsm timesOut.phase)
  refine ⟨timesOut.bits, timesOut.nbits, timesOut.bits ▸ sampled, timesOut.bits ▸ inv.rx.nbits_le frame,
    fun n decided => ?_, ?_⟩
  · exact timesOut.bits ▸ frame.nbits_lt (timesOut.need.symm.trans decided)
  · have phase := timesOut.phase
    cases which : info.phase <;> rw [which] at phase
    · exact .inl ⟨rfl, phase⟩
    · exact .inr ⟨rfl, phase⟩

end Sys2Proof.Proofs
end

section
/-! Reset (R150, R151): a tick with a reset is the reset alone, and the values that R150 leaves to a draw
or unspecified are none that the invariant reads. -/

namespace Sys2Proof.Machine

/-- With a choice listed, it is the next one drawn (log 5). -/
theorem draw_of_cons {e : Env} {d : Nat} {ds : List Nat} (listed : e.draws = d :: ds) : e.draw.1 = d := by
  simp only [Env.draw, listed]

/-- A reset draws `prev_level` (R30), and a listed odd choice is level 1 (log 5). -/
theorem applyReset_prevLevel_of_listed {s : State} {d : Nat} {ds : List Nat}
    (listed : s.env.draws = d :: ds) : (applyReset s).prevLevel = decide (d % 2 = 1) := by
  change (s.env.draw.1 % 2 == 1) = _
  rw [draw_of_cons listed, beq_eq_decide]

/-- A reset takes the place of the whole tick (R151, log 20). -/
theorem step_eq_applyReset {s : State} (accepted : configProblem s.cfg = none)
    (reset : s.env.input.reset = true) : step s = .next (applyReset s) := by
  rcases step_cases s with ⟨r, problem, -⟩ | ⟨-, -, resets⟩ | ⟨-, no_reset, -⟩
  · cases accepted.symm.trans problem
  · exact resets
  · cases reset.symm.trans no_reset

/-- The invariant reads neither `prev_level` nor `data` nor the environment. -/
theorem Inv.of_free {s : State} (h : Inv s) (level : Bit) (data : Block) (env : Env) :
    Inv { s with prevLevel := level, data := data, env := env } where
  drive := h.drive
  tx := { h.tx with }
  rx := { h.rx with }
  result := { h.result with }
  edge := { h.edge with }

end Sys2Proof.Machine

namespace Sys2Proof.Proofs

open Sys2Proof.Machine

/-- Settles O48, by the field laws of `State.resetWith`. -/
theorem resetValues : Obligations.ResetValues := by
  rintro cfg level data _ rfl
  simp

/-- Settles O49: the step is the reset, which leaves the reset state of O48 but for the environment, with
the level drawn. -/
theorem resetAbandonsTheTransaction : Obligations.ResetAbandonsTheTransaction := by
  intro s accepted reset
  obtain ⟨level, data, leaves⟩ := applyReset_eq s
  obtain ⟨released, -, others⟩ := resetValues s.cfg level data _ rfl
  refine ⟨applyReset s, step_eq_applyReset accepted reset, applyReset_cfg s, ?_,
    fun d ds => applyReset_prevLevel_of_listed, ?_⟩
  · rw [leaves]
    exact released
  · rw [leaves]
    exact others

/-- Settles O50: the reset state is what a reset of it leaves, but for fields the invariant does not read. -/
theorem resetMeetsTheInvariant : Obligations.ResetMeetsTheInvariant := fun cfg level data =>
  (applyReset_inv (State.resetWith cfg level data)).of_free level data Env.unlisted

end Sys2Proof.Proofs
end
